-- ==== Sys2Proof/Word.lean ====
section
/-! DEFINITION. The words and numbers of the part: bytes, sample words, the numbered things of rule R1,
and tables of a fixed length indexed by them. -/

namespace Sys2Proof

/-- A byte of a link transaction or of a step record (R186, R189). -/
abbrev Byte := BitVec 8

/-- A 24-bit channel sample or signalling word as it stands on an audio link (R6, R190). -/
abbrev SampleWord := BitVec 24

/-- A control port, 0 to 3 (R1). -/
abbrev Port := Fin 4

/-- A line. Line `n` of the manual (1 to 24, R1) is index `n - 1`. -/
abbrev Line := Fin 24

/-- A studio source. Source `n` of the manual (1 to 16, R1) is index `n - 1`. -/
abbrev Source := Fin 16

/-- A mix bus. Bus `n` of the manual (1 to 8, R1) is index `n - 1`. -/
abbrev Bus := Fin 8

/-- A contributor. Contributor index `n` of the manual (1 to 40, R1) is index `n - 1`:
lines first, then sources. -/
abbrev Contributor := Fin 40

/-- A reference, numbered as in R165: 0 INT, 1 WC1, 2 WC2, 3 LNK. -/
abbrev RefId := Fin 4

/-- A meter, or an output in meter order. Meter `n` of the manual (1 to 32, R1) is index `n - 1`:
the returns of the lines, then the bus outputs. -/
abbrev MeterId := Fin 32

/-- The internal crystal reference (R165). -/
abbrev RefId.int : RefId := 0

/-- The reference recovered from link A0 (R165). -/
abbrev RefId.lnk : RefId := 3

/-- Contributor index of a line: lines 1 to 24 are contributors 1 to 24 (R1). -/
abbrev Line.contributor (l : Line) : Contributor := ⟨l.val, by omega⟩

/-- Contributor index of a source: source s is contributor s + 24 (R1). -/
abbrev Source.contributor (x : Source) : Contributor := ⟨x.val + 24, by omega⟩

/-- The line a contributor is, if it is one (R1). -/
def Contributor.line? (c : Contributor) : Option Line :=
  if h : c.val < 24 then some ⟨c.val, h⟩ else none

/-- A table with one entry for each index below `n`. -/
abbrev Table (n : Nat) (α : Type) := Vector α n

/-- Entry `i` of a table. -/
def tget {n : Nat} {α : Type} (t : Table n α) (i : Fin n) : α := t[i.val]

/-- The table with entry `i` replaced. -/
def tset {n : Nat} {α : Type} (t : Table n α) (i : Fin n) (a : α) : Table n α := t.set i.val a

/-- The table with entry `i` changed by `f`. -/
def tmod {n : Nat} {α : Type} (t : Table n α) (i : Fin n) (f : α → α) : Table n α := tset t i (f (tget t i))

/-- The table whose entry `i` is `f i`. -/
def tmake {n : Nat} {α : Type} (f : Fin n → α) : Table n α := ⟨(List.ofFn f).toArray, by simp⟩

/-- The table whose every entry is `a`. -/
def tall {n : Nat} {α : Type} (a : α) : Table n α := tmake fun _ => a

end Sys2Proof
end

