-- ==== Sys2Proof/Syntax.lean ====
section
/-! DEFINITION. The commands of the part: one constructor for each row of spec/opcode_table.json, with its operands. -/

namespace Sys2Proof

/-- One frame of an audio link: its 256 bit periods, the first one the most significant bit (R190). -/
abbrev LinkFrame := BitVec 256

/-- One frame of the five input links A0 to A4 (R4). -/
abbrev InputFrame := Table 5 LinkFrame

/-- One frame of the line input links A0 to A2, which carry a signalling word (R7). -/
abbrev LineFrame := Table 3 LinkFrame

/-- A command of the part. A task row is a WRITE-TASK transaction with that row's task code: its operands are the port it is
written on and the argument bytes as they cross the port (R176, R186). -/
inductive Instr where
  | setCell (p : Port) (args : List Byte)
  | park (p : Port) (args : List Byte)
  | place (p : Port) (args : List Byte)
  | trim (p : Port) (args : List Byte)
  | tone (p : Port) (args : List Byte)
  | ackAttn (p : Port) (args : List Byte)
  | lineStatus (p : Port) (args : List Byte)
  | claim (p : Port) (args : List Byte)
  | release (p : Port) (args : List Byte)
  | hand (p : Port) (args : List Byte)
  | seize (p : Port) (args : List Byte)
  | assign (p : Port) (args : List Byte)
  | clearMatrix (p : Port) (args : List Byte)
  | talk (p : Port) (args : List Byte)
  | untalk (p : Port) (args : List Byte)
  | loadBegin (p : Port) (args : List Byte)
  | loadChunk (p : Port) (args : List Byte)
  | loadEnd (p : Port) (args : List Byte)
  | run (p : Port) (args : List Byte)
  | halt (p : Port) (args : List Byte)
  | seqStatus (p : Port) (args : List Byte)
  | watch (p : Port) (args : List Byte)
  | readNotices (p : Port) (args : List Byte)
  | snap (p : Port) (args : List Byte)
  | readSnap (p : Port) (args : List Byte)
  | refEnable (p : Port) (args : List Byte)
  | refSelect (p : Port) (args : List Byte)
  | clockStatus (p : Port) (args : List Byte)
  /-- A WRITE-TASK whose task code is not one the part knows (R179). -/
  | unknownTask (p : Port) (code : Byte) (args : List Byte)
  | readResult (p : Port)
  /-- READ-STATUS; `cmd` is the command byte, 0x03 or any value that is no other command (R176). -/
  | readStatus (p : Port) (cmd : Byte)
  | abort (p : Port)
  /-- Player `p` examines a SET-CELL step outside a group (R131, R132). The next nine are the other kinds. -/
  | stepSetCell (p : Port)
  | stepSetTrim (p : Port)
  | stepPlace (p : Port)
  | stepTone (p : Port)
  | stepTalkOn (p : Port)
  | stepTalkOff (p : Port)
  | stepWait (p : Port)
  | stepAwait (p : Port)
  | stepGroup (p : Port)
  | stepEnd (p : Port)
  | examineInvalidStep (p : Port)
  | powerOnReset
  | portReset (p : Port)
  | portResetRelease (p : Port)
  | freezeAsserted
  | freezeReleased
  /-- The end of a frame: the input links' bits received in it, and the Mix Engine's frame event (R8, R9). -/
  | frameEvent (rx : InputFrame)
  /-- The arrival of a frame's signalling words, with the bits of the links they stand on (R7, R52). -/
  | signallingWord (rx : LineFrame)
  | connect (l : Line)
  | disconnect (l : Line)
  | attentionRaised (l : Line)
  | attentionDropped (l : Line)
  /-- The remaining wait of port `p` in the waiter set of line `l` has reached zero (R79). -/
  | claimWaitExpiry (l : Line) (p : Port)
  | chunkTimerExpiry (p : Port)
  | waitTimerExpiry (p : Port)
  | awaitTimeout (p : Port)
  | snapshotExpiry
  /-- An arrival on reference `r`. `length` is the measured interval since the arrival before it, in the unit of
  `Config.nominalPeriod` (log 7). It has no meaning where no interval is open, for INT, which is the measure itself (R167), and for
LNK, whose intervals the part measures from the markers (R190, log 9). -/
  | referencePeriod (r : RefId) (length : Nat)
  | missingPeriod (r : RefId)
  | referenceLock (r : RefId)
  | referenceLoss (r : RefId)
  | examineMalformedStep (p : Port)
  deriving DecidableEq, Repr

end Sys2Proof
end

