-- ==== Sys2Proof/Decode.lean ====
section
/-! DEFINITION. From bits to commands. No row of spec/opcode_table.json gives bits, so `decodeTableWord` spells no command.
What the spec does encode is the link transaction: `decodeLink` reads its command bytes (R176, R186) and `encodeLink`
writes them. -/

namespace Sys2Proof

/-- The command a word spells by the bits of spec/opcode_table.json. No row of the table has bits, so no word spells one. -/
def decodeTableWord (_nbits _w : Nat) : Option Instr := none

/-- The task that a WRITE-TASK with this task code writes on port `p` (R186); an unlisted code is an unknown task (R179). -/
def taskOfCode (p : Port) (code : Byte) (args : List Byte) : Instr :=
  match code.toNat with
  | 0x10 => .setCell p args
  | 0x11 => .park p args
  | 0x20 => .place p args
  | 0x21 => .trim p args
  | 0x22 => .tone p args
  | 0x23 => .ackAttn p args
  | 0x24 => .lineStatus p args
  | 0x30 => .claim p args
  | 0x31 => .release p args
  | 0x32 => .hand p args
  | 0x33 => .seize p args
  | 0x34 => .assign p args
  | 0x35 => .clearMatrix p args
  | 0x40 => .talk p args
  | 0x41 => .untalk p args
  | 0x50 => .loadBegin p args
  | 0x51 => .loadChunk p args
  | 0x52 => .loadEnd p args
  | 0x58 => .run p args
  | 0x59 => .halt p args
  | 0x5A => .seqStatus p args
  | 0x60 => .watch p args
  | 0x61 => .readNotices p args
  | 0x68 => .snap p args
  | 0x69 => .readSnap p args
  | 0x70 => .refEnable p args
  | 0x71 => .refSelect p args
  | 0x72 => .clockStatus p args
  | _ => .unknownTask p code args

/-- Whether a task code is one of R186. -/
def knownTaskCode (code : Byte) : Bool :=
  [0x10, 0x11, 0x20, 0x21, 0x22, 0x23, 0x24, 0x30, 0x31, 0x32, 0x33, 0x34, 0x35, 0x40, 0x41, 0x50, 0x51, 0x52, 0x58, 0x59,
    0x5A, 0x60, 0x61, 0x68, 0x69, 0x70, 0x71, 0x72].contains code.toNat

/-- The command that the part takes from the command-phase bytes of a transaction on port `p` (R176): none while the last
command byte has not arrived; bytes after it are not read. -/
def decodeLink (p : Port) : List Byte → Option Instr
  | [] => none
  | cmd :: rest =>
    if cmd = 0x01 then
      match rest with
      | code :: n :: more => if more.length < n.toNat then none else some (taskOfCode p code (more.take n.toNat))
      | _ => none
    else if cmd = 0x02 then some (.readResult p)
    else if cmd = 0x04 then some (.abort p)
    else some (.readStatus p cmd)

/-- The command-phase bytes of a WRITE-TASK (R176). -/
def writeTaskBytes (code : Byte) (args : List Byte) : List Byte :=
  0x01 :: code :: BitVec.ofNat 8 args.length :: args

/-- The port a link transaction is on, with its command-phase bytes (R176, R186); none for a command that is no link
transaction. -/
def encodeLink : Instr → Option (Port × List Byte)
  | .setCell p args => some (p, writeTaskBytes 0x10 args)
  | .park p args => some (p, writeTaskBytes 0x11 args)
  | .place p args => some (p, writeTaskBytes 0x20 args)
  | .trim p args => some (p, writeTaskBytes 0x21 args)
  | .tone p args => some (p, writeTaskBytes 0x22 args)
  | .ackAttn p args => some (p, writeTaskBytes 0x23 args)
  | .lineStatus p args => some (p, writeTaskBytes 0x24 args)
  | .claim p args => some (p, writeTaskBytes 0x30 args)
  | .release p args => some (p, writeTaskBytes 0x31 args)
  | .hand p args => some (p, writeTaskBytes 0x32 args)
  | .seize p args => some (p, writeTaskBytes 0x33 args)
  | .assign p args => some (p, writeTaskBytes 0x34 args)
  | .clearMatrix p args => some (p, writeTaskBytes 0x35 args)
  | .talk p args => some (p, writeTaskBytes 0x40 args)
  | .untalk p args => some (p, writeTaskBytes 0x41 args)
  | .loadBegin p args => some (p, writeTaskBytes 0x50 args)
  | .loadChunk p args => some (p, writeTaskBytes 0x51 args)
  | .loadEnd p args => some (p, writeTaskBytes 0x52 args)
  | .run p args => some (p, writeTaskBytes 0x58 args)
  | .halt p args => some (p, writeTaskBytes 0x59 args)
  | .seqStatus p args => some (p, writeTaskBytes 0x5A args)
  | .watch p args => some (p, writeTaskBytes 0x60 args)
  | .readNotices p args => some (p, writeTaskBytes 0x61 args)
  | .snap p args => some (p, writeTaskBytes 0x68 args)
  | .readSnap p args => some (p, writeTaskBytes 0x69 args)
  | .refEnable p args => some (p, writeTaskBytes 0x70 args)
  | .refSelect p args => some (p, writeTaskBytes 0x71 args)
  | .clockStatus p args => some (p, writeTaskBytes 0x72 args)
  | .unknownTask p code args => some (p, writeTaskBytes code args)
  | .readResult p => some (p, [0x02])
  | .readStatus p cmd => some (p, [cmd])
  | .abort p => some (p, [0x04])
  | .stepSetCell _ => none
  | .stepSetTrim _ => none
  | .stepPlace _ => none
  | .stepTone _ => none
  | .stepTalkOn _ => none
  | .stepTalkOff _ => none
  | .stepWait _ => none
  | .stepAwait _ => none
  | .stepGroup _ => none
  | .stepEnd _ => none
  | .examineInvalidStep _ => none
  | .powerOnReset => none
  | .portReset _ => none
  | .portResetRelease _ => none
  | .freezeAsserted => none
  | .freezeReleased => none
  | .frameEvent _ => none
  | .signallingWord _ => none
  | .connect _ => none
  | .disconnect _ => none
  | .attentionRaised _ => none
  | .attentionDropped _ => none
  | .claimWaitExpiry _ _ => none
  | .chunkTimerExpiry _ => none
  | .waitTimerExpiry _ => none
  | .awaitTimeout _ => none
  | .snapshotExpiry => none
  | .referencePeriod _ _ => none
  | .missingPeriod _ => none
  | .referenceLock _ => none
  | .referenceLoss _ => none
  | .examineMalformedStep _ => none

end Sys2Proof
end

