-- ==== Sys2Proof/Config.lean ====
section
/-! DEFINITION. What the manual leaves open (free values) and the constants it fixes for the whole part. -/

namespace Sys2Proof.Config

/-- FREE VALUE (log 10, log 11). The generator's rate after a sound period of the followed reference while the rate
still moves toward that reference's rate: R170 says only that it moves gradually and arrives within 4,800 frames. The step
holds it between the rate it moves from and the one it moves to.
The argument is a fresh number for each use (`State.free`). No body: nothing can be proved of a value of it. -/
opaque pulledRate : Nat → Nat

/-- A millisecond of the part is 48 frames (R3). -/
def framesPerMs : Nat := 48

/-- Length of the debounce in frames (R52, R53): 8 ms. -/
def debounceFrames : Nat := 384

/-- Unity coefficient (R2). -/
def unity : Nat := 32768

/-- Frames of the snapshot buffer's loan (R158): 1,000 ms. -/
def snapshotFrames : Nat := 48000

/-- Frames within which the generator reaches a new reference's rate (R170): 100 ms. -/
def pullFrames : Nat := 4800

/-- DESIGN CHOICE (log 10): the generator is on its new reference's rate from the first sound period in the last two of those
frames on, so that R170's bound holds although only sound periods move it. -/
def pullLast : Nat := 2

/-- DESIGN CHOICE (log 7): lengths of reference intervals are whole numbers of a thousand-millionth of 1/48,000 second.
This is the nominal length. -/
def nominalPeriod : Nat := 1000000000

/-- 500 ppm of the nominal period, in the unit of `nominalPeriod` (R167). -/
def periodTolerance : Nat := 500000

end Sys2Proof.Config
end

