-- ==== Sys2Proof/Machine/State.lean ====
section
/-! DEFINITION. The state of the part, block by block as 00_scope.md divides it, and the state after power-on reset. -/

namespace Sys2Proof.Machine

open Sys2Proof

/-- Why a step could stop with a fault. There is no such reason: the part reports errors in task results and in players' end
records, which are next states, and no command's effect is left without one. -/
inductive Fault where
  deriving DecidableEq, Repr

/-- Why a step could be refused. -/
inductive Refusal where
  /-- Raised by an arm of `exec` for a command that has no meaning yet. Safe: the run stops there. No arm raises it now. -/
  | notModelled (mnemonic : String)
  deriving DecidableEq, Repr

/-! ## Line Table -/

/-- State of a line (R48, R49). -/
inductive LineStatus where
  | free | held | placed
  deriving DecidableEq, Repr

/-- A time that may be left to run: a count of frames, or unlimited (R78, R128). -/
inductive TimeLeft where
  | frames (n : Nat)
  | unlimited
  deriving DecidableEq, Repr

/-- The talk slot of a line (R99). -/
structure TalkSlot where
  talker : Port
  source : Source
  gain : Nat
  duck : Nat
  deriving DecidableEq, Repr

/-- One line record (R48). `waiters` has one place for each port: its remaining wait while it waits (R78).
`attnRaised` is the debounced attention; the debounced connected condition is `connected` (R52). -/
structure LineRec where
  connected : Bool
  attention : Bool
  status : LineStatus
  owner : Option Port
  bus : Option Bus
  hold : Option Source
  tone : Bool
  talk : Option TalkSlot
  waiters : Table 4 (Option TimeLeft)
  connCount : Nat
  attnRaised : Bool
  attnCount : Nat
  deriving DecidableEq, Repr

/-- The Line Table: the line records and the bus owner table (R48, R73). -/
structure LineTable where
  lines : Table 24 LineRec
  busOwner : Table 8 Port
  deriving DecidableEq, Repr

/-! ## Mix Engine -/

/-- A ramped coefficient (R28). -/
structure Ramp where
  target : Nat
  current : Nat
  deriving DecidableEq, Repr

/-- A staged action of a pending group (R36). -/
inductive Action where
  | cell (c : Contributor) (b : Bus) (v : Nat)
  | trim (l : Line) (v : Nat)
  | place (l : Line) (bus : Option Bus) (hold : Option Source)
  | tone (l : Line) (on : Bool)
  deriving DecidableEq, Repr

/-- A staged action with the step address it came from (R36). -/
structure Staged where
  addr : Nat
  action : Action
  deriving DecidableEq, Repr

/-- The Mix Engine: the coefficient bank (R28), the staging list with at most one group for each player (R36), the tone phase
counter (R24), and the outputs in meter order that are transmitted in the next frame (R5, R8). -/
structure MixEngine where
  cells : Table 40 (Table 8 Ramp)
  storedTrim : Table 24 Nat
  trimDuck : Table 24 Nat
  trim : Table 24 Ramp
  talkLevel : Table 24 Ramp
  lastTalk : Table 24 Source
  parkSource : Source
  parkGain : Ramp
  staging : Table 4 (Option (List Staged))
  tonePhase : Nat
  out : Table 32 Int
  deriving DecidableEq, Repr

/-! ## Cue Store and Loader -/

/-- Memory of bytes: (address, byte) pairs, addresses strictly rising, no entry 0; an unlisted address reads 0 (R113). -/
abbrev Memory := List Host.Cell

/-- How a load ended (R117). -/
inductive LoadOutcome where
  | none | done | short | timedOut | abandoned
  deriving DecidableEq, Repr

/-- A port's loader (R117). -/
structure Loader where
  loading : Bool
  offset : Nat
  declared : Nat
  received : Nat
  timeout : Nat
  timer : Option Nat
  outcome : LoadOutcome
  deriving DecidableEq, Repr

/-- The Cue Store and the loaders (R113, R116, R117). -/
structure CueStore where
  mem : Memory
  valid : Table 4 (Table 256 Bool)
  loaders : Table 4 Loader
  deriving DecidableEq, Repr

/-! ## Cue Players -/

/-- Condition of an AWAIT step (R135). -/
inductive Condition where
  | attentionLatched | connected | disconnected
  deriving DecidableEq, Repr

/-- What an AWAIT step does at its timeout (R136). -/
inductive AwaitMode where
  | stop | goOn
  deriving DecidableEq, Repr

/-- State of a Cue Player with its timer and, in AWAITING, what it awaits (R128). -/
inductive PlayerState where
  | idle
  | stepping
  | waiting (left : Nat)
  | awaiting (left : TimeLeft) (line : Line) (cond : Condition) (mode : AwaitMode)
  | pending
  | paused
  deriving DecidableEq, Repr

/-- Fault kind of an end record (R129). -/
inductive PlayerFault where
  | invalid | badStep | ranOff | notOwner | badGroup | lostLine
  deriving DecidableEq, Repr

/-- End reason of an end record; the fault kind is present only when the reason is Fault (R129). -/
inductive EndReason where
  | none | ended | halted | fault (kind : PlayerFault) | timeout | cleared | portReset
  deriving DecidableEq, Repr

/-- A Cue Player (R128) with its end record (R129). -/
structure Player where
  state : PlayerState
  addr : Nat
  endReason : EndReason
  endAddr : Nat
  deriving DecidableEq, Repr

/-! ## Notice Unit -/

/-- Kinds of events of an event table (R147). -/
inductive EventKind where
  | handed | taken | dropped | talkEnded
  deriving DecidableEq, Repr

/-- The set of pending kinds of one line in an event table (R145). -/
structure EventSet where
  handed : Bool
  taken : Bool
  dropped : Bool
  talkEnded : Bool
  deriving DecidableEq, Repr

/-- The Notice Unit (R145) and the notice line pins it drives (R149). -/
structure NoticeUnit where
  watch : Table 4 (Table 24 Bool)
  events : Table 4 (Table 24 EventSet)
  latchView : Table 24 Bool
  unreadView : Table 4 Bool
  refChange : Bool
  line : Table 4 Bool
  deriving DecidableEq, Repr

/-! ## Meter Unit -/

/-- A meter (R156). -/
structure Meter where
  peak : Nat
  clips : Nat
  deriving DecidableEq, Repr

/-- The contents of a locked snapshot buffer (R158). -/
structure Snapshot where
  entries : Table 32 Meter
  holder : Port
  timer : Nat
  deriving DecidableEq, Repr

/-- The Meter Unit: live meters (R156), snapshot buffer (R158), waiting captures (R159). -/
structure MeterUnit where
  live : Table 32 Meter
  buffer : Option Snapshot
  waiting : Table 4 Bool
  deriving DecidableEq, Repr

/-! ## Frame Clock Unit -/

/-- State of a reference (R166). -/
inductive RefState where
  | off | acquiring | locked
  deriving DecidableEq, Repr

/-- A reference record (R166). `armed`: an interval is open, so the next arrival ends one (R167, log 8). `reached`: the
period that reaches the lock or loss threshold has been counted, and the lock or loss is the next step (log 4). `length`:
the length of its last sound period (log 10). -/
structure RefRec where
  state : RefState
  count : Nat
  armed : Bool
  reached : Bool
  length : Nat
  deriving DecidableEq, Repr

/-- State of the generator (R169). -/
inductive GenState where
  | following | holdover
  deriving DecidableEq, Repr

/-- The Frame Clock Unit (R166, R169). `rate` is the frame length the generator runs at, in the unit of
`Config.nominalPeriod`; `pull` the frames left of R170's 4,800 while it moves to a new reference's rate (log 10). For LNK (R167,
R190, log 9), in 256ths of that unit: `sinceMarker`, the time from the last frame-start marker to the next frame's sync, none where
no marker has come since LNK was enabled; `marker`, the interval that ends at the marker of the last link A0 word, while its arrival
is not yet taken; `missed`, the missing periods counted in the interval at hand. -/
structure FrameClock where
  refs : Table 4 RefRec
  selected : RefId
  generator : GenState
  rate : Option Nat
  running : Bool
  pull : Nat
  marker : Option Nat
  sinceMarker : Option Nat
  missed : Nat
  deriving DecidableEq, Repr

/-! ## Control Ports -/

/-- Status of a task result (00_scope.md, "Task results"). -/
inductive Status where
  | done | refused | ended
  deriving DecidableEq, Repr

/-- Reason of a task result, in the order of the introduction's table. -/
inductive Reason where
  | none | alreadyOwner | badArg | notOwner | notSenior | notHolder | busy | frozen | noLock | locked | noData | notLoading
  | overrun | short | timeout | aborted | cleared | unknownTask
  deriving DecidableEq, Repr

/-- A task result (R178). -/
structure Result where
  status : Status
  reason : Reason
  detail : Nat
  output : List Byte
  deriving DecidableEq, Repr

/-- A task slot with what it holds in each state (R178). -/
inductive Slot where
  | empty
  | working (code : Byte) (args : List Byte)
  | done (code : Byte) (args : List Byte) (result : Result)
  deriving DecidableEq, Repr

/-- One control port: task slot and unread mark (R178), write-not-taken flag (R177), the level of its reset line (R184), and the
bytes the part drives in the response phase of the last transaction (R176, log 13). -/
structure CtrlPort where
  slot : Slot
  unread : Bool
  writeNotTaken : Bool
  held : Bool
  response : List Byte
  deriving DecidableEq, Repr

/-- The Control Ports, with the level of the FREEZE input (R183). -/
structure ControlPorts where
  port : Table 4 CtrlPort
  freeze : Bool
  deriving DecidableEq, Repr

/-! ## The whole -/

/-- The state of the part. `free` selects the next free value (log 11); `pending` is the queue of waiting commands, first in
first out (log 6). -/
structure State where
  lineTable : LineTable
  mix : MixEngine
  cue : CueStore
  players : Table 4 Player
  notice : NoticeUnit
  meter : MeterUnit
  clock : FrameClock
  ports : ControlPorts
  free : Nat
  pending : List Instr
  deriving DecidableEq, Repr

/-! ## One update for each block -/

/-- The state with another Line Table. -/
def State.withLineTable (s : State) (x : LineTable) : State := { s with lineTable := x }
/-- The state with another Mix Engine. -/
def State.withMix (s : State) (x : MixEngine) : State := { s with mix := x }
/-- The state with another Cue Store. -/
def State.withCue (s : State) (x : CueStore) : State := { s with cue := x }
/-- The state with other Cue Players. -/
def State.withPlayers (s : State) (x : Table 4 Player) : State := { s with players := x }
/-- The state with another Notice Unit. -/
def State.withNotice (s : State) (x : NoticeUnit) : State := { s with notice := x }
/-- The state with another Meter Unit. -/
def State.withMeter (s : State) (x : MeterUnit) : State := { s with meter := x }
/-- The state with another Frame Clock Unit. -/
def State.withClock (s : State) (x : FrameClock) : State := { s with clock := x }
/-- The state with other Control Ports. -/
def State.withPorts (s : State) (x : ControlPorts) : State := { s with ports := x }
/-- The state with another free-value counter. -/
def State.withFree (s : State) (x : Nat) : State := { s with free := x }
/-- The state with another command queue. -/
def State.withPending (s : State) (x : List Instr) : State := { s with pending := x }

/-! ## Power-on values -/

/-- A line record after power-on (R48). -/
def LineRec.reset : LineRec where
  connected := false
  attention := false
  status := .free
  owner := none
  bus := none
  hold := none
  tone := false
  talk := none
  waiters := tall none
  connCount := 0
  attnRaised := false
  attnCount := 0

/-- The Line Table after power-on (R48, R73): port 0 owns buses 1 and 2, port 1 buses 3 and 4, and so on. -/
def LineTable.reset : LineTable where
  lines := tall LineRec.reset
  busOwner := tmake fun b => ⟨b.val / 2, by omega⟩

/-- The Mix Engine after power-on (R21, R24, R28, R36, R8). -/
def MixEngine.reset : MixEngine where
  cells := tall (tall ⟨0, 0⟩)
  storedTrim := tall 32768
  trimDuck := tall 32768
  trim := tall ⟨32768, 32768⟩
  talkLevel := tall ⟨0, 0⟩
  lastTalk := tall 0
  parkSource := 15
  parkGain := ⟨0, 0⟩
  staging := tall none
  tonePhase := 0
  out := tall 0

/-- A loader after power-on (R117). -/
def Loader.reset : Loader where
  loading := false
  offset := 0
  declared := 0
  received := 0
  timeout := 4800
  timer := none
  outcome := .none

/-- The Cue Store after power-on: every byte zero, every record invalid (R113, R117). -/
def CueStore.reset : CueStore where
  mem := []
  valid := tall (tall false)
  loaders := tall Loader.reset

/-- A Cue Player after power-on (R128, R129). -/
def Player.reset : Player where
  state := .idle
  addr := 0
  endReason := .none
  endAddr := 0

/-- No pending kinds (R145). -/
def EventSet.empty : EventSet where
  handed := false
  taken := false
  dropped := false
  talkEnded := false

/-- The Notice Unit after power-on (R145, R185). -/
def NoticeUnit.reset : NoticeUnit where
  watch := tall (tall false)
  events := tall (tall EventSet.empty)
  latchView := tall false
  unreadView := tall false
  refChange := false
  line := tall false

/-- The Meter Unit after power-on (R156, R158). -/
def MeterUnit.reset : MeterUnit where
  live := tall ⟨0, 0⟩
  buffer := none
  waiting := tall false

/-- A reference record after power-on: INT ACQUIRING, the others OFF, count 0 (R166). DESIGN CHOICE: an interval of INT is open
(log 8) and every length is nominal (log 10). -/
def RefRec.reset (r : RefId) : RefRec where
  state := if r = RefId.int then .acquiring else .off
  count := 0
  armed := r = RefId.int
  reached := false
  length := Config.nominalPeriod

/-- The Frame Clock Unit after power-on: INT selected, HOLDOVER, no rate, not running (R166, R169). -/
def FrameClock.reset : FrameClock where
  refs := tmake RefRec.reset
  selected := RefId.int
  generator := .holdover
  rate := none
  running := false
  pull := 0
  marker := none
  sinceMarker := none
  missed := 0

/-- A control port after power-on (R178, R185). DESIGN CHOICE: its reset line is released (log 2), nothing has been driven
(log 13). -/
def CtrlPort.reset : CtrlPort where
  slot := .empty
  unread := false
  writeNotTaken := false
  held := false
  response := []

/-- The Control Ports after power-on. DESIGN CHOICE: FREEZE is not asserted (log 1). -/
def ControlPorts.reset : ControlPorts where
  port := tall CtrlPort.reset
  freeze := false

/-- The part right after power-on reset (R185), with no command waiting. -/
def State.reset : State where
  lineTable := LineTable.reset
  mix := MixEngine.reset
  cue := CueStore.reset
  players := tall Player.reset
  notice := NoticeUnit.reset
  meter := MeterUnit.reset
  clock := FrameClock.reset
  ports := ControlPorts.reset
  free := 0
  pending := []

end Sys2Proof.Machine
end

