-- ==== Sys2Proof/Machine/Ops.lean ====
section
/-! DEFINITION. The shared operations: access to memory and to the records, writes into the coefficient bank, talk slot writes,
the clean-up of an ownership change, discards, event-table raises, completions, and the moves of a Cue Player. Each acts on a
whole set of lines, ports or cells at once, given as a Bool function, so that one definition serves one item and all. -/

namespace Sys2Proof.Machine

open Sys2Proof

/-! ## Memory of bytes (R113) -/

/-- The byte at an address; an unlisted address reads 0 (R113). -/
def Memory.read : Memory → Nat → Byte
  | [], _ => 0
  | (a, b) :: rest, i => if a = i then b else Memory.read rest i

/-- Writes one byte, keeping addresses rising and listing no zero byte. -/
def Memory.write : Memory → Nat → Byte → Memory
  | [], i, v => if v = 0 then [] else [(i, v)]
  | (a, b) :: rest, i, v =>
    if a < i then (a, b) :: Memory.write rest i v
    else if a = i then (if v = 0 then rest else (i, v) :: rest)
    else (if v = 0 then (a, b) :: rest else (i, v) :: (a, b) :: rest)

/-- Writes bytes at consecutive addresses. -/
def Memory.writeBytes (m : Memory) (i : Nat) : List Byte → Memory
  | [] => m
  | v :: rest => Memory.writeBytes (Memory.write m i v) (i + 1) rest

/-- Whether every address of the list is above `i`, in rising order, with no zero byte. -/
def Memory.wfAbove (i : Nat) : Memory → Bool
  | [] => true
  | (a, b) :: rest => i < a && b != 0 && Memory.wfAbove a rest

/-- The canonical form: addresses strictly rising and no entry equal to what an unlisted address reads as. -/
def Memory.wf : Memory → Bool
  | [] => true
  | (a, b) :: rest => b != 0 && Memory.wfAbove a rest

/-! ## Records of the blocks -/

/-- The record of line `l`. -/
def State.line (s : State) (l : Line) : LineRec := tget s.lineTable.lines l

/-- Changes every line record by a function of the line. -/
def State.mapLines (s : State) (f : Line → LineRec → LineRec) : State :=
  s.withLineTable { s.lineTable with lines := tmake fun l => f l (s.line l) }

/-- Changes the record of line `l`. -/
def State.modLine (s : State) (l : Line) (f : LineRec → LineRec) : State :=
  s.withLineTable { s.lineTable with lines := tmod s.lineTable.lines l f }

/-- The owner of bus `b` (R73). -/
def State.busOwner (s : State) (b : Bus) : Port := tget s.lineTable.busOwner b

/-- The control port `p`. -/
def State.port (s : State) (p : Port) : CtrlPort := tget s.ports.port p

/-- Changes control port `p`. -/
def State.modPort (s : State) (p : Port) (f : CtrlPort → CtrlPort) : State :=
  s.withPorts { s.ports with port := tmod s.ports.port p f }

/-- The Cue Player of port `p`. -/
def State.player (s : State) (p : Port) : Player := tget s.players p

/-- Replaces the Cue Player of port `p`. -/
def State.setPlayer (s : State) (p : Port) (x : Player) : State := s.withPlayers (tset s.players p x)

/-- The loader of port `p`. -/
def State.loader (s : State) (p : Port) : Loader := tget s.cue.loaders p

/-- Replaces the loader of port `p`. -/
def State.setLoader (s : State) (p : Port) (x : Loader) : State :=
  s.withCue { s.cue with loaders := tset s.cue.loaders p x }

/-- The record of reference `r`. -/
def State.ref (s : State) (r : RefId) : RefRec := tget s.clock.refs r

/-- Replaces the record of reference `r`. -/
def State.setRef (s : State) (r : RefId) (x : RefRec) : State :=
  s.withClock { s.clock with refs := tset s.clock.refs r x }

/-- Owner or holder as a detail number: 255 for none (R1). -/
def portDetail : Option Port → Nat
  | none => 255
  | some p => p.val

/-! ## The coefficient bank (R28 to R31) -/

/-- Writes one target into every selected cell (R29). Current values are not touched. -/
def MixEngine.writeCells (m : MixEngine) (sel : Contributor → Bus → Bool) (v : Nat) : MixEngine :=
  { m with cells := tmake fun c => tmake fun b =>
      if sel c b then { tget (tget m.cells c) b with target := v } else tget (tget m.cells c) b }

/-- Trim target: floor(stored trim × trim duck / 32,768) (R30). -/
def trimTarget (stored duck : Nat) : Nat := stored * duck / 32768

/-- Writes stored trim and trim duck of the selected lines; the trim target is recomputed as part of the same write (R30). -/
def MixEngine.writeTrims (m : MixEngine) (sel : Line → Bool) (stored duck : Line → Nat) : MixEngine :=
  { m with
    storedTrim := tmake fun l => if sel l then stored l else tget m.storedTrim l
    trimDuck := tmake fun l => if sel l then duck l else tget m.trimDuck l
    trim := tmake fun l =>
      if sel l then { tget m.trim l with target := trimTarget (stored l) (duck l) } else tget m.trim l }

/-- Writes the stored trim of one line (R30, R65). -/
def MixEngine.writeStoredTrim (m : MixEngine) (l : Line) (v : Nat) : MixEngine :=
  m.writeTrims (fun k => k == l) (fun _ => v) (fun k => tget m.trimDuck k)

/-- Writes the talk level target of the selected lines (R31). -/
def MixEngine.writeTalkLevels (m : MixEngine) (sel : Line → Bool) (v : Nat) : MixEngine :=
  { m with talkLevel := tmake fun l => if sel l then { tget m.talkLevel l with target := v } else tget m.talkLevel l }

/-- The writes of R100 for a slot taken, updated or passed on. -/
def MixEngine.talkTaken (m : MixEngine) (l : Line) (t : TalkSlot) : MixEngine :=
  let m := m.writeTalkLevels (fun k => k == l) t.gain
  let m := m.writeTrims (fun k => k == l) (fun k => tget m.storedTrim k) (fun _ => t.duck)
  { m with lastTalk := tset m.lastTalk l t.source }

/-- The writes of R100 for the clearing of the slots of the selected lines. -/
def MixEngine.talkCleared (m : MixEngine) (sel : Line → Bool) : MixEngine :=
  let m := m.writeTalkLevels sel 0
  m.writeTrims sel (fun k => tget m.storedTrim k) (fun _ => 32768)

/-- The target writes of the clean-up of R75 for the selected lines: every cell of the line 0, stored trim 32,768, talk level
0, trim duck 32,768. -/
def MixEngine.cleaned (m : MixEngine) (sel : Line → Bool) : MixEngine :=
  let m := m.writeCells (fun c _ => match c.line? with | some l => sel l | none => false) 0
  let m := m.writeTalkLevels sel 0
  m.writeTrims sel (fun _ => 32768) (fun _ => 32768)

/-- Writes the park source and the park gain target (R45). -/
def MixEngine.writePark (m : MixEngine) (x : Source) (v : Nat) : MixEngine :=
  { m with parkSource := x, parkGain := { m.parkGain with target := v } }

/-! ## Line records -/

/-- The placement of R63 and R62: bus absent means hold; a hold source given is set; PLACE on hold without one makes it
absent, PLACE on a bus without one leaves it. -/
def LineRec.placedOn (r : LineRec) (bus : Option Bus) (hold : Option Source) : LineRec :=
  match bus with
  | none => { r with status := .held, bus := none, hold := hold }
  | some b => { r with status := .placed, bus := some b, hold := if hold.isSome then hold else r.hold }

/-- The record part of the clean-up of R75 with the new owner: HELD under it, or FREE. The new owner leaves the waiter set, and
a FREE line has no waiters (R78). -/
def LineRec.cleaned (r : LineRec) (new : Option Port) : LineRec :=
  { r with
    status := if new.isSome then .held else .free
    owner := new
    bus := none
    hold := none
    tone := false
    talk := none
    waiters := match new with
      | some p => tset r.waiters p none
      | none => tall none }

/-- A FREE line granted at once: HELD, owned by `p`; no clean-up (R74, R85). -/
def LineRec.granted (r : LineRec) (p : Port) : LineRec :=
  { r with status := .held, owner := some p }

/-- The lowest-numbered port in the waiter set (R80). -/
def LineRec.firstWaiter (r : LineRec) : Option Port :=
  (List.finRange 4).find? fun p => (tget r.waiters p).isSome

/-- Sets the attention latch of line `l` and, with it, the latch view of the Notice Unit (R146). -/
def State.setAttention (s : State) (l : Line) (v : Bool) : State :=
  let s := s.modLine l fun r => { r with attention := v }
  s.withNotice { s.notice with latchView := tset s.notice.latchView l v }

/-! ## Event tables (R147) -/

/-- Whether a kind is in a set of kinds. -/
def EventSet.has (e : EventSet) : EventKind → Bool
  | .handed => e.handed
  | .taken => e.taken
  | .dropped => e.dropped
  | .talkEnded => e.talkEnded

/-- Raises every selected kind; a kind already in the set is left (R147). -/
def NoticeUnit.raiseWhere (n : NoticeUnit) (f : Port → Line → EventKind → Bool) : NoticeUnit :=
  { n with events := tmake fun p => tmake fun l =>
      let e := tget (tget n.events p) l
      { handed := e.handed || f p l .handed
        taken := e.taken || f p l .taken
        dropped := e.dropped || f p l .dropped
        talkEnded := e.talkEnded || f p l .talkEnded } }

/-- Raises one kind for one line in the event table of port `q` (R147). -/
def State.raise (s : State) (q : Port) (l : Line) (k : EventKind) : State :=
  s.withNotice (s.notice.raiseWhere fun p i e => p == q && i == l && e == k)

/-- Raises TALK-ENDED to the talk-slot holder of line `l`, unless it is the acting port (R77, R104). -/
def State.raiseTalkEnded (s : State) (l : Line) (actor : Port) : State :=
  match (s.line l).talk with
  | some t => if t.talker = actor then s else s.raise t.talker l .talkEnded
  | none => s

/-! ## Task slots -/

/-- A DONE result with no output. -/
def Result.plain (st : Status) (why : Reason) (detail : Nat) : Result := ⟨st, why, detail, []⟩

/-- The slot of port `p` becomes DONE with the result and the unread mark set, which the Notice Unit is told (R178, R149). -/
def State.complete (s : State) (p : Port) (code : Byte) (args : List Byte) (r : Result) : State :=
  let s := s.modPort p fun x => { x with slot := .done code args r, unread := true }
  s.withNotice { s.notice with unreadView := tset s.notice.unreadView p true }

/-- The slot of port `p` becomes WORKING with the unread mark clear (R178). -/
def State.goWorking (s : State) (p : Port) (code : Byte) (args : List Byte) : State :=
  let s := s.modPort p fun x => { x with slot := .working code args, unread := false }
  s.withNotice { s.notice with unreadView := tset s.notice.unreadView p false }

/-- A completion delivered by a block: a WORKING slot becomes DONE (R178, R180). -/
def State.deliver (s : State) (p : Port) (r : Result) : State :=
  match (s.port p).slot with
  | .working code args => s.complete p code args r
  | _ => s

/-- Completions delivered to every selected port. -/
def State.deliverAll (s : State) (who : Port → Bool) (r : Port → Result) : State :=
  (List.finRange 4).foldl (fun s p => if who p then s.deliver p (r p) else s) s

/-! ## Cue Players -/

/-- The player ends: IDLE, its step address the end address, its end record written (R129). -/
def Player.ended (_ : Player) (why : EndReason) (a : Nat) : Player :=
  { state := .idle, addr := a, endReason := why, endAddr := a }

/-- The player goes on past its step, or ends with End if the step stands at 255 (R134, R135, R136). -/
def Player.goOn (x : Player) : Player :=
  if 255 ≤ x.addr then x.ended .ended x.addr else { x with state := .stepping, addr := x.addr + 1 }

/-- Ends the player of port `p`; a pending group is discarded unapplied at every ending (R129, R41). -/
def State.endPlayer (s : State) (p : Port) (why : EndReason) (a : Nat) : State :=
  let s := s.setPlayer p ((s.player p).ended why a)
  s.withMix { s.mix with staging := tset s.mix.staging p none }

/-- Ends every selected player that is not IDLE at its step address (R140, R143). -/
def State.endPlayers (s : State) (sel : Port → Bool) (why : EndReason) : State :=
  let stop : Port → Bool := fun p => sel p && (s.player p).state != .idle
  let s := s.withMix { s.mix with
    staging := tmake fun p => if stop p then none else tget s.mix.staging p }
  s.withPlayers (tmake fun p => if stop p then (s.player p).ended why (s.player p).addr else s.player p)

/-- Tells every player AWAITING this condition of this line that it is met (R135). -/
def State.tellAwaiting (s : State) (l : Line) (c : Condition) : State :=
  s.withPlayers (tmake fun p =>
    match (s.player p).state with
    | .awaiting _ l' c' _ => if l' = l ∧ c' = c then (s.player p).goOn else s.player p
    | _ => s.player p)

/-! ## Pending groups (R36, R40) -/

/-- Whether a staged action names line `l` (R36). -/
def Action.namesLine (l : Line) : Action → Bool
  | .cell c _ _ => c.line? == some l
  | .trim k _ => k == l
  | .place k _ _ => k == l
  | .tone k _ => k == l

/-- Whether a staged action names bus `b` (R36). -/
def Action.namesBus (b : Bus) : Action → Bool
  | .cell _ k _ => k == b
  | .trim _ _ => false
  | .place _ bus _ => bus == some b
  | .tone _ _ => false

/-- Whether the group of player `p` holds an action that `named` picks. -/
def State.groupNames (s : State) (named : Action → Bool) (p : Port) : Bool :=
  match tget s.mix.staging p with
  | some g => g.any fun a => named a.action
  | none => false

/-- A discard request: every group that names the line or bus is removed unapplied, and its player ends with Fault LostLine at
its GROUP step (R40, R138). -/
def State.discard (s : State) (named : Action → Bool) : State :=
  let lost : Port → Bool := s.groupNames named
  let s := s.withMix { s.mix with staging := tmake fun p => if lost p then none else tget s.mix.staging p }
  s.withPlayers (tmake fun p =>
    if lost p then (s.player p).ended (.fault .lostLine) (s.player p).addr else s.player p)

/-! ## Change of a line's owner (R74 to R77) -/

/-- A change of the owner of line `l` from port `prev` to `new`, made by a task of port `actor`: TALK-ENDED to the talk-slot
holder unless it acted, the clean-up of R75, the discard request naming the line (R76), and the completion of the new owner's
waiting CLAIM with the previous owner in the detail (R82). -/
def State.changeOwner (s : State) (l : Line) (prev : Port) (new : Option Port) (actor : Port) : State :=
  let granted : Option Port := new.filter fun q => (tget (s.line l).waiters q).isSome
  let s := s.raiseTalkEnded l actor
  let s := s.modLine l fun r => r.cleaned new
  let s := s.withMix (s.mix.cleaned fun k => k == l)
  let s := s.discard (Action.namesLine l)
  match granted with
  | some q => s.deliver q (Result.plain .done .none prev.val)
  | none => s

/-- Sets the talk slot of line `l` with the writes of R100. -/
def State.setTalk (s : State) (l : Line) (t : TalkSlot) : State :=
  let s := s.modLine l fun r => { r with talk := some t }
  s.withMix (s.mix.talkTaken l t)

/-- Clears the talk slots of the selected lines with the writes of R100. -/
def State.clearTalks (s : State) (sel : Line → Bool) : State :=
  let s := s.mapLines fun l r => if sel l then { r with talk := none } else r
  s.withMix (s.mix.talkCleared sel)

end Sys2Proof.Machine
end

