-- ==== Sys2Proof/Machine/Flags.lean ====
section
/-! DEFINITION. The notice conditions, the notice lines and the port status byte (R149, R150, R177, R187). -/

namespace Sys2Proof.Machine

open Sys2Proof

/-- Port `p`'s slot holds a completed result that has not been read, as the Notice Unit was told (R149). -/
def State.unreadResult (s : State) (p : Port) : Bool := tget s.notice.unreadView p

/-- A set of kinds has a kind: the line has an entry (R145). -/
def EventSet.any (e : EventSet) : Bool := e.handed || e.taken || e.dropped || e.talkEnded

/-- Port `p`'s event table has at least one entry (R149). -/
def State.eventsPending (s : State) (p : Port) : Bool :=
  (List.finRange 24).any fun l => (tget (tget s.notice.events p) l).any

/-- At least one line in port `p`'s watch set is latched in the latch view (R149). -/
def State.watchedAttention (s : State) (p : Port) : Bool :=
  (List.finRange 24).any fun l => tget (tget s.notice.watch p) l && tget s.notice.latchView l

/-- `p` is 0 and the reference-change flag is set (R149). -/
def State.referenceChange (s : State) (p : Port) : Bool := p == 0 && s.notice.refChange

/-- Whether the notice line of port `p` is asserted: any of the four conditions holds (R149). -/
def State.noticeLevel (s : State) (p : Port) : Bool :=
  s.unreadResult p || s.eventsPending p || s.watchedAttention p || s.referenceChange p

/-- Re-evaluates the four notice lines, as part of the action that changes a condition (R149). -/
def State.driveNotices (s : State) : State :=
  s.withNotice { s.notice with line := tmake fun p => s.noticeLevel p }

/-- The slot item of the status byte: 0 EMPTY, 1 WORKING, 2 DONE read, 3 DONE unread (R187). -/
def CtrlPort.slotCode (x : CtrlPort) : Nat :=
  match x.slot with
  | .empty => 0
  | .working _ _ => 1
  | .done _ _ _ => if x.unread then 3 else 2

/-- One bit of a byte, as its weight. -/
def bitAt (n : Nat) (v : Bool) : Nat := if v then 2 ^ n else 0

/-- The port status byte (R177, R187): slot in bits 7 and 6, then events pending, watched attention, reference change, write
not taken, FREEZE asserted, holdover. -/
def State.statusByte (s : State) (p : Port) : Byte :=
  BitVec.ofNat 8 ((s.port p).slotCode * 64 + bitAt 5 (s.eventsPending p) + bitAt 4 (s.watchedAttention p)
    + bitAt 3 (s.referenceChange p) + bitAt 2 (s.port p).writeNotTaken + bitAt 1 s.ports.freeze
    + bitAt 0 (s.clock.generator == .holdover))

end Sys2Proof.Machine
end

