-- ==== Sys2Proof/Machine/Operands.lean ====
section
/-! DEFINITION. Operand forms: fields of the argument bytes and step records (R186, R189), the ranges of the arguments, the
ownership checks that tasks, cue steps and groups share, and the byte layouts of outputs (R187, R188). -/

namespace Sys2Proof.Machine

open Sys2Proof

/-! ## Fields of a byte string -/

/-- One-byte field at offset `i` (R186). -/
def byteAt (args : List Byte) (i : Nat) : Nat := (args.getD i 0).toNat

/-- Two-byte field at offset `i`, most significant byte first (R186). -/
def wordAt (args : List Byte) (i : Nat) : Nat := byteAt args i * 256 + byteAt args (i + 1)

/-- The `k` low bytes of a number, most significant byte first (R186). -/
def beBytes : Nat → Nat → List Byte
  | 0, _ => []
  | k + 1, n => BitVec.ofNat 8 (n / 256 ^ k) :: beBytes k n

/-- A line argument, 1 to 24. -/
def lineArg (n : Nat) : Option Line := if h : 1 ≤ n ∧ n ≤ 24 then some ⟨n - 1, by omega⟩ else none

/-- A source argument, 1 to 16. -/
def sourceArg (n : Nat) : Option Source := if h : 1 ≤ n ∧ n ≤ 16 then some ⟨n - 1, by omega⟩ else none

/-- A bus argument, 1 to 8. -/
def busArg (n : Nat) : Option Bus := if h : 1 ≤ n ∧ n ≤ 8 then some ⟨n - 1, by omega⟩ else none

/-- A contributor argument, 1 to 40. -/
def contributorArg (n : Nat) : Option Contributor := if h : 1 ≤ n ∧ n ≤ 40 then some ⟨n - 1, by omega⟩ else none

/-- A port argument, 0 to 3. -/
def portArg (n : Nat) : Option Port := if h : n < 4 then some ⟨n, h⟩ else none

/-- A reference argument, 0 to 3 (R165). -/
def refArg (n : Nat) : Option RefId := if h : n < 4 then some ⟨n, h⟩ else none

/-- The bus argument of a placement, 0 to 8: 0 means hold (R63). -/
def placeBusArg (n : Nat) : Option (Option Bus) := if n = 0 then some none else (busArg n).map some

/-- The hold source argument of a placement, 0 to 16: 0 means absent (R63). -/
def holdArg (n : Nat) : Option (Option Source) := if n = 0 then some none else (sourceArg n).map some

/-- A setting argument, 0 or 1. -/
def settingArg (n : Nat) : Option Bool := if n = 0 then some false else if n = 1 then some true else none

/-- A duck argument: values above 32,768 are taken as 32,768 (R107). -/
def clampDuck (n : Nat) : Nat := min n 32768

/-- Frames of a time in milliseconds (R3). -/
def msFrames (n : Nat) : Nat := n * 48

/-- The remaining wait of a CLAIM's wait argument (R79): 65,535 is unlimited, values above 30,000 ms are taken as 30,000. -/
def claimWait (n : Nat) : TimeLeft := if n = 65535 then .unlimited else .frames (msFrames (min n 30000))

/-- The set of lines of a line map of three bytes (R186). -/
def lineMapHas (args : List Byte) (l : Line) : Bool := (args.getD (l.val / 8) 0).getLsbD (l.val % 8)

/-! ## Link frames and signalling words (R190) -/

/-- The sample of channel `n` + 1: 24 bit periods, in channel order from the first one of the frame, most significant first. -/
def channelOf (f : LinkFrame) (n : Fin 8) : SampleWord := f.extractLsb' (232 - 24 * n.val) 24

/-- The signalling word: the 24 bit periods after the channels, most significant first. The 40 after it are not read. -/
def signallingOf (f : LinkFrame) : SampleWord := f.extractLsb' 40 24

/-- The frame of an output link that carries these samples, with zeros after them. -/
def frameOf (x : Fin 8 → SampleWord) : LinkFrame := x 0 ++ x 1 ++ x 2 ++ x 3 ++ x 4 ++ x 5 ++ x 6 ++ x 7 ++ 0#64

/-- The signalling word of a line's link in a frame. -/
def lineWord (rx : LineFrame) (l : Line) : SampleWord := signallingOf (tget rx ⟨l.val / 8, by omega⟩)

/-- Raw connected condition of a line: bit n - 1 of its link's word for channel n. -/
def rawConnected (rx : LineFrame) (l : Line) : Bool := (lineWord rx l).getLsbD (l.val % 8)

/-- Raw attention condition of a line: bit n + 7 of its link's word for channel n. -/
def rawAttention (rx : LineFrame) (l : Line) : Bool := (lineWord rx l).getLsbD (l.val % 8 + 8)

/-- The frame-start marker of link A0's word, bits 16 to 23: the offset in bit periods from the frame sync. A word of zeros carries
none (R165). -/
def frameMarker (rx : LineFrame) : Option Nat :=
  let word := signallingOf (tget rx 0)
  if word = 0 then none else some (word.toNat / 65536)

/-! ## Ownership checks, shared by tasks, cue steps and groups

Each answers the detail of the NotOwner refusal, or none where the port passes. -/

/-- The line is owned by `p`, or the detail is its owner, 255 if FREE (R64 check 6, R66 check 4, R68 check 5). -/
def State.lineDenied (s : State) (p : Port) (l : Line) : Option Nat :=
  if (s.line l).owner = some p then none else some (portDetail (s.line l).owner)

/-- The bus is owned by `p`, or the detail is its owner (R43 check 5, R64 check 7). -/
def State.busDenied (s : State) (p : Port) (b : Bus) : Option Nat :=
  if s.busOwner b = p then none else some (s.busOwner b).val

/-- The checks of R43, 5 and 6: the bus, then the line where the contributor is one. -/
def State.cellDenied (s : State) (p : Port) (c : Contributor) (b : Bus) : Option Nat :=
  match s.busDenied p b with
  | some d => some d
  | none =>
    match c.line? with
    | some l => s.lineDenied p l
    | none => none

/-- The checks of R64, 6 and 7: the line, then the bus where one is named. -/
def State.placeDenied (s : State) (p : Port) (l : Line) (bus : Option Bus) : Option Nat :=
  match s.lineDenied p l with
  | some d => some d
  | none =>
    match bus with
    | some b => s.busDenied p b
    | none => none

/-- The ownership check of a staged action, as the mirrored task makes it (R137 check 5). -/
def State.actionDenied (s : State) (p : Port) : Action → Option Nat
  | .cell c b _ => s.cellDenied p c b
  | .trim l _ => s.lineDenied p l
  | .place l bus _ => s.placeDenied p l bus
  | .tone l _ => s.lineDenied p l

/-- The effect of an action on the bank or on the line record: R42, R65, R63, R67 without their checks. -/
def State.performAction (s : State) : Action → State
  | .cell c b v => s.withMix (s.mix.writeCells (fun c' b' => c' == c && b' == b) v)
  | .trim l v => s.withMix (s.mix.writeStoredTrim l v)
  | .place l bus hold => s.modLine l fun r => r.placedOn bus hold
  | .tone l on => s.modLine l fun r => { r with tone := on }

/-! ## Step records (R114, R189) -/

/-- A well-formed step record with its fields, clamps and conversions applied (R114). -/
inductive StepBody where
  | act (a : Action)
  | talkOn (l : Line) (x : Source) (gain duck : Nat)
  | talkOff (l : Line)
  | wait (frames : Nat)
  | await (l : Line) (c : Condition) (timeout : TimeLeft) (mode : AwaitMode)
  | group (count : Nat)
  | stop
  deriving DecidableEq, Repr

/-- Condition code of an AWAIT record (R189). -/
def conditionArg (n : Nat) : Option Condition :=
  if n = 0 then some .attentionLatched else if n = 1 then some .connected else if n = 2 then some .disconnected else none

/-- Mode code of an AWAIT record (R189). -/
def modeArg (n : Nat) : Option AwaitMode := if n = 0 then some .stop else if n = 1 then some .goOn else none

/-- Timeout of an AWAIT record: 0 means none (R114, R135). -/
def awaitTime (n : Nat) : TimeLeft := if n = 0 then .unlimited else .frames (msFrames n)

/-- Reads the 8 bytes of a step record; none where the record is malformed: a kind code outside 0x01 to 0x0A or a field outside
its range (R115, R189). -/
def decodeStep (r : List Byte) : Option StepBody :=
  match byteAt r 0 with
  | 0x01 => do
    let c ← contributorArg (byteAt r 1)
    let b ← busArg (byteAt r 2)
    return .act (.cell c b (wordAt r 3))
  | 0x02 => do
    let l ← lineArg (byteAt r 1)
    return .act (.trim l (wordAt r 2))
  | 0x03 => do
    let l ← lineArg (byteAt r 1)
    let b ← placeBusArg (byteAt r 2)
    let h ← holdArg (byteAt r 3)
    return .act (.place l b h)
  | 0x04 => do
    let l ← lineArg (byteAt r 1)
    let x ← sourceArg (byteAt r 2)
    return .talkOn l x (wordAt r 3) (clampDuck (wordAt r 5))
  | 0x05 => do
    let l ← lineArg (byteAt r 1)
    return .talkOff l
  | 0x06 => do
    let l ← lineArg (byteAt r 1)
    let on ← settingArg (byteAt r 2)
    return .act (.tone l on)
  | 0x07 => some (.wait (msFrames (max 1 (wordAt r 1))))
  | 0x08 => do
    let l ← lineArg (byteAt r 1)
    let c ← conditionArg (byteAt r 2)
    let m ← modeArg (byteAt r 5)
    return .await l c (awaitTime (wordAt r 3)) m
  | 0x09 => if 1 ≤ byteAt r 1 ∧ byteAt r 1 ≤ 16 then some (.group (byteAt r 1)) else none
  | 0x0A => some .stop
  | _ => none

/-- The address of byte `i` of record `a` of region `p` in the Cue Store's memory (log 20). -/
def recordByte (p : Port) (a i : Nat) : Nat := p.val * 2048 + a * 8 + i

/-- The 8 bytes of record `a` of region `p` (R113). -/
def State.record (s : State) (p : Port) (a : Nat) : List Byte :=
  (List.range 8).map fun i => s.cue.mem.read (recordByte p a i)

/-- The valid mark of record `a` of region `p` (R113); there is no record past 255. -/
def State.recordValid (s : State) (p : Port) (a : Nat) : Bool :=
  if h : a < 256 then tget (tget s.cue.valid p) ⟨a, h⟩ else false

/-! ## Codes of outputs (R187, R188) -/

/-- Status code of a result record. -/
def Status.code : Status → Nat
  | .done => 1
  | .refused => 2
  | .ended => 3

/-- Reason code of a result record: the order of the introduction's table. -/
def Reason.code : Reason → Nat
  | .none => 0
  | .alreadyOwner => 1
  | .badArg => 2
  | .notOwner => 3
  | .notSenior => 4
  | .notHolder => 5
  | .busy => 6
  | .frozen => 7
  | .noLock => 8
  | .locked => 9
  | .noData => 10
  | .notLoading => 11
  | .overrun => 12
  | .short => 13
  | .timeout => 14
  | .aborted => 15
  | .cleared => 16
  | .unknownTask => 17

/-- Line state code of LINE-STATUS. -/
def LineStatus.code : LineStatus → Nat
  | .free => 0
  | .held => 1
  | .placed => 2

/-- A remaining time in three bytes, 0xFFFFFF meaning unlimited. -/
def TimeLeft.bytes : TimeLeft → List Byte
  | .frames n => beBytes 3 n
  | .unlimited => beBytes 3 0xFFFFFF

/-- Last load outcome code of SEQ-STATUS. -/
def LoadOutcome.code : LoadOutcome → Nat
  | .none => 0
  | .done => 1
  | .short => 2
  | .timedOut => 3
  | .abandoned => 4

/-- Player state code of SEQ-STATUS. -/
def PlayerState.code : PlayerState → Nat
  | .idle => 0
  | .stepping => 1
  | .waiting _ => 2
  | .awaiting _ _ _ _ => 3
  | .pending => 4
  | .paused => 5

/-- Player timer remaining of SEQ-STATUS: 0 in the states without a timer (R144). -/
def PlayerState.timer : PlayerState → TimeLeft
  | .waiting n => .frames n
  | .awaiting t _ _ _ => t
  | _ => .frames 0

/-- Fault kind code of SEQ-STATUS. -/
def PlayerFault.code : PlayerFault → Nat
  | .invalid => 1
  | .badStep => 2
  | .ranOff => 3
  | .notOwner => 4
  | .badGroup => 5
  | .lostLine => 6

/-- End reason code of SEQ-STATUS. -/
def EndReason.code : EndReason → Nat
  | .none => 0
  | .ended => 1
  | .halted => 2
  | .fault _ => 3
  | .timeout => 4
  | .cleared => 5
  | .portReset => 6

/-- Fault kind field of SEQ-STATUS: 0 unless the end reason is Fault. -/
def EndReason.faultCode : EndReason → Nat
  | .fault k => k.code
  | _ => 0

/-- Reference state number of REF-ENABLE's and REF-SELECT's detail and of CLOCK-STATUS (R171, R175). -/
def RefState.code : RefState → Nat
  | .off => 0
  | .acquiring => 1
  | .locked => 2

/-- Generator code of CLOCK-STATUS. -/
def GenState.code : GenState → Nat
  | .following => 0
  | .holdover => 1

/-- A bus as a number, 0 when absent. -/
def busNumber : Option Bus → Nat
  | none => 0
  | some b => b.val + 1

/-- A source as a number, 0 when absent. -/
def sourceNumber : Option Source → Nat
  | none => 0
  | some x => x.val + 1

end Sys2Proof.Machine
end

