-- ==== Sys2Proof/Machine/Transactions.lean ====
section
/-! DEFINITION. What all link transactions share: the response, the intake of a WRITE-TASK (R176 to R180), and the ends of a
task. -/

namespace Sys2Proof.Machine

open Sys2Proof

/-- What a block answers to a task it was handed: the state after it, and the result if the task is complete; none if the task
goes on (R180). -/
structure TaskEnd where
  state : State
  result : Option Result

/-- The task was not taken: REFUSED, with nothing changed. -/
def State.refuse (s : State) (why : Reason) (detail : Nat) : TaskEnd := ⟨s, some (Result.plain .refused why detail)⟩

/-- The task reached its aim: DONE, None, no output. -/
def State.finish (s : State) (detail : Nat) : TaskEnd := ⟨s, some (Result.plain .done .none detail)⟩

/-- The task reached its aim: DONE, None, with an output. -/
def State.finishWith (s : State) (detail : Nat) (output : List Byte) : TaskEnd :=
  ⟨s, some ⟨.done, .none, detail, output⟩⟩

/-- The part sends its response: the port status byte as it stands now, then the bytes of the command (R176). Every transaction
ends with it, so the notice lines are driven here too. -/
def State.respond (s : State) (p : Port) (more : List Byte) : State :=
  (s.modPort p fun x => { x with response := s.statusByte p :: more }).driveNotices

/-- What the part sends as byte `k`, from 0, of transaction `c`, in the state after it (R176): 0x00 while the command bytes are sent,
then the response, then 0x00 again. Nothing while the port's reset line is held (R184). -/
def State.sends (s : State) (c : Instr) (k : Nat) : Option Byte :=
  match encodeLink c with
  | none => none
  | some (p, bytes) =>
    if (s.port p).held then none
    else if k < bytes.length then some 0x00
    else some ((s.port p).response.getD (k - bytes.length) 0x00)

/-- The end of a task in its port's slot (R178). -/
def State.settle (s : State) (p : Port) (code : Byte) (args : List Byte) : Option Result → State
  | some r => s.complete p code args r
  | none => s.goWorking p code args

/-- A slot holds a task in progress (R178). -/
def Slot.isWorking : Slot → Bool
  | .working _ _ => true
  | _ => false

/-- The intake checks after the task code's (R179): the argument length, then FREEZE for a changing task. A task that passes is
handed to its block. -/
def State.intake (s : State) (lengthOk changing : Bool) (body : State → TaskEnd) : TaskEnd :=
  if !lengthOk then s.refuse .badArg 0
  else if changing && s.ports.freeze then s.refuse .frozen 0
  else body s

/-- WRITE-TASK on port `p`: not taken while the port's reset line is held (R184) or while the slot is WORKING (R177, R178);
otherwise taken, checked at intake and carried out, and its end put into the slot. -/
def State.writeTask (s : State) (p : Port) (code : Byte) (args : List Byte) (lengthOk changing : Bool)
    (body : State → TaskEnd) : State :=
  if (s.port p).held then s
  else if (s.port p).slot.isWorking then (s.modPort p fun x => { x with writeNotTaken := true }).respond p []
  else
    let taken := s.modPort p fun x => { x with writeNotTaken := false }
    let e := taken.intake lengthOk changing body
    (e.state.settle p code args e.result).respond p []

end Sys2Proof.Machine
end

