-- ==== Sys2Proof/Machine/Clock.lean ====
section
/-! DEFINITION. The Frame Clock Unit: REF-ENABLE, REF-SELECT, CLOCK-STATUS, the periods of a reference, its lock and its loss,
and the generator. -/

namespace Sys2Proof.Machine

open Sys2Proof

/-! ## Tasks -/

/-- Reference `r` is turned on: ACQUIRING, count 0; its periods are taken from the next arrival (R171), so no interval is open, and
no marker that came before is taken or measured from. -/
def State.startAcquiring (s : State) (r : RefId) : State :=
  let s := s.setRef r { s.ref r with state := .acquiring, count := 0, armed := false, reached := false }
  if r = RefId.lnk then s.withClock { s.clock with marker := none, sinceMarker := none, missed := 0 } else s

/-- REF-ENABLE at its block: R172 checks 2 to 6, then R171. The detail is the state before. -/
def State.taskRefEnable (s : State) (p : Port) (args : List Byte) : TaskEnd :=
  if p ≠ 0 then s.refuse .notSenior 255
  else
    match refArg (byteAt args 0), settingArg (byteAt args 1) with
    | some r, some on =>
      if r = RefId.int ∧ !on then s.refuse .badArg 0
      else if !on ∧ s.clock.selected = r then s.refuse .busy r.val
      else
        let x := s.ref r
        let t :=
          if on then
            if x.state = .off then s.startAcquiring r else s
          else if x.state = .off then s
          else s.setRef r { x with state := .off, count := 0, armed := false, reached := false }
        t.finish x.state.code
    | _, _ => s.refuse .badArg 0

/-- REF_ENABLE (R171, R172): two argument bytes; served under FREEZE. -/
def execRefEnable (p : Port) (args : List Byte) (s : State) : Host.Outcome State Fault Refusal :=
  .next (s.writeTask p 0x70 args (args.length == 2) false fun t => t.taskRefEnable p args)

/-- REF-SELECT at its block: R174 checks 2 to 4, then R173: the running generator goes FOLLOWING the new reference and moves to
its rate (R170). The detail is the reference selected before. -/
def State.taskRefSelect (s : State) (p : Port) (args : List Byte) : TaskEnd :=
  if p ≠ 0 then s.refuse .notSenior 255
  else
    match refArg (byteAt args 0) with
    | none => s.refuse .badArg 0
    | some r =>
      if (s.ref r).state ≠ .locked then s.refuse .noLock (s.ref r).state.code
      else if r = s.clock.selected then s.finish r.val
      else if s.clock.running then
        (s.withClock { s.clock with selected := r, generator := .following, pull := Config.pullFrames }).finish
          s.clock.selected.val
      else (s.withClock { s.clock with selected := r }).finish s.clock.selected.val

/-- REF_SELECT (R173, R174): one argument byte; served under FREEZE. -/
def execRefSelect (p : Port) (args : List Byte) (s : State) : Host.Outcome State Fault Refusal :=
  .next (s.writeTask p 0x71 args (args.length == 1) false fun t => t.taskRefSelect p args)

/-- The output of CLOCK-STATUS (R175, R188). -/
def State.clockStatusOutput (s : State) : List Byte :=
  (List.finRange 4).flatMap (fun r => beBytes 1 (s.ref r).state.code)
    ++ (List.finRange 4).flatMap (fun r => beBytes 2 (s.ref r).count)
    ++ beBytes 1 s.clock.selected.val ++ beBytes 1 s.clock.generator.code ++ beBytes 1 s.clock.running.toNat

/-- CLOCK-STATUS at its block (R175): for port 0 the same action reads and clears the reference-change flag. -/
def State.taskClockStatus (s : State) (p : Port) : TaskEnd :=
  if p = 0 then
    (s.withNotice { s.notice with refChange := false }).finishWith s.notice.refChange.toNat s.clockStatusOutput
  else s.finishWith 0 s.clockStatusOutput

/-- CLOCK_STATUS (R175): no argument; served under FREEZE. -/
def execClockStatus (p : Port) (args : List Byte) (s : State) : Host.Outcome State Fault Refusal :=
  .next (s.writeTask p 0x72 args (args.length == 0) false fun t => t.taskClockStatus p)

/-! ## Lock and loss (R168, R169) -/

/-- Sets the reference-change flag (R148). -/
def State.flagReference (s : State) : State := s.withNotice { s.notice with refChange := true }

/-- Reference `r` becomes LOCKED with count 0. INT's first lock starts the generator, without a flag; the lock of the selected
reference takes a running generator out of HOLDOVER, with the flag (R168, R169). -/
def State.lockReference (s : State) (r : RefId) : State :=
  let s := s.setRef r { s.ref r with state := .locked, count := 0, reached := false }
  if r = RefId.int ∧ !s.clock.running then
    s.withClock { s.clock with
      running := true
      generator := if (s.ref s.clock.selected).state = .locked then .following else .holdover
      rate := some (s.ref r).length
      pull := 0 }
  else if r = s.clock.selected ∧ s.clock.generator = .holdover ∧ s.clock.running then
    (s.withClock { s.clock with generator := .following, pull := Config.pullFrames }).flagReference
  else s

/-- Reference `r` is lost: ACQUIRING, count 0. The loss of the selected reference puts a following generator in HOLDOVER at the
rate it has, with the flag (R168, R169). -/
def State.loseReference (s : State) (r : RefId) : State :=
  let s := s.setRef r { s.ref r with state := .acquiring, count := 0, reached := false }
  if r = s.clock.selected ∧ s.clock.generator = .following then
    (s.withClock { s.clock with generator := .holdover, pull := 0 }).flagReference
  else s

/-- Whether the lock of reference `r` is due: the sound period that reaches its threshold has been counted. -/
def State.lockDue (s : State) (r : RefId) : Bool := (s.ref r).reached && (s.ref r).state == .acquiring

/-- Whether the loss of reference `r` is due: its eighth consecutive faulty period has been counted. -/
def State.lossDue (s : State) (r : RefId) : Bool := (s.ref r).reached && (s.ref r).state == .locked

/-- A due lock or loss that has not been taken yet (log 4). -/
def State.takeLockOrLoss (s : State) (r : RefId) : State :=
  if s.lockDue r then s.lockReference r else if s.lossDue r then s.loseReference r else s

/-- REFERENCE_LOCK (R168): no effect where the threshold has not been reached (log 3). -/
def execReferenceLock (r : RefId) (s : State) : Host.Outcome State Fault Refusal :=
  .next (if s.lockDue r then (s.lockReference r).driveNotices else s)

/-- REFERENCE_LOSS (R168): no effect where the threshold has not been reached (log 3). -/
def execReferenceLoss (r : RefId) (s : State) : Host.Outcome State Fault Refusal :=
  .next (if s.lossDue r then (s.loseReference r).driveNotices else s)

/-! ## Periods (R167) -/

/-- Sound periods in a row that lock a reference: 256 for INT, 4,096 for the others (R168). -/
def lockThreshold (r : RefId) : Nat := if r = RefId.int then 256 else 4096

/-- A count that goes up by one, with the mark instead of the last step to its threshold (R166, log 4). -/
def RefRec.countTo (x : RefRec) (n : Nat) : RefRec :=
  if x.count + 1 < n then { x with count := x.count + 1 } else { x with reached := true }

/-- The effect of a sound period on the record (R168). -/
def RefRec.sound (x : RefRec) (r : RefId) : RefRec :=
  match x.state with
  | .off => x
  | .acquiring => x.countTo (lockThreshold r)
  | .locked => { x with count := 0 }

/-- The effect of an out of tolerance or missing period on the record (R168). -/
def RefRec.faulty (x : RefRec) : RefRec :=
  match x.state with
  | .off => x
  | .acquiring => { x with count := 0 }
  | .locked => x.countTo 8

/-- Whether an interval of this length is sound: within 500 ppm of nominal; INT's always is (R167). -/
def soundLength (r : RefId) (length : Nat) : Bool :=
  r == RefId.int || (Config.nominalPeriod - Config.periodTolerance ≤ length
    && length ≤ Config.nominalPeriod + Config.periodTolerance)

/-- A value no further than `a` and `b` allow: `x` between them, else the nearer of the two. -/
def between (a b x : Nat) : Nat := max (min a b) (min (max a b) x)

/-- A following generator is moved by a sound period of the selected reference, and by nothing else: to its rate, or, while it
still moves there, to a rate the manual leaves open between the two (R169, R170, log 10, log 11). -/
def State.followPeriod (s : State) (r : RefId) : State :=
  if r = s.clock.selected ∧ s.clock.generator = .following then
    if s.clock.pull ≤ Config.pullLast then s.withClock { s.clock with rate := some (s.ref r).length }
    else
      let target := (s.ref r).length
      let rate := between (s.clock.rate.getD target) target (Config.pulledRate s.free)
      (s.withClock { s.clock with rate := some rate }).withFree (s.free + 1)
  else s

/-- A sound period of this length on reference `r`. -/
def State.soundPeriod (s : State) (r : RefId) (length : Nat) : State :=
  (s.setRef r { (s.ref r).sound r with length := length }).followPeriod r

/-- The length of the interval that an arrival on reference `r` ends: INT is measured against itself, LNK from marker to marker
(R190, log 9), the others as given. -/
def State.measured (s : State) (r : RefId) (length : Nat) : Nat :=
  if r = RefId.int then Config.nominalPeriod
  else if r = RefId.lnk then s.clock.marker.getD 0 / 256
  else length

/-- Missing periods in a stretch without a marker (R167), in 256ths of the unit of log 7: one when two nominal periods have passed,
one more at each further one. -/
def gapPeriods (time : Nat) : Nat := (time - 1) / (256 * Config.nominalPeriod) - 1

/-- Missing periods of LNK that R167 counts up to the marker that has come, or else up to the present frame, and that have not been
counted yet. -/
def State.missingDue (s : State) : Nat :=
  gapPeriods (s.clock.marker.getD (s.clock.sinceMarker.getD 0)) - s.clock.missed

/-- A missing period of reference `r`: a lock or loss still due is taken first; the interval is closed, so that the next arrival
starts a new one, and the period is counted as faulty (R167). -/
def State.missed (s : State) (r : RefId) : State :=
  let s := s.takeLockOrLoss r
  let s := if r = RefId.lnk then s.withClock { s.clock with missed := s.clock.missed + 1 } else s
  s.setRef r { (s.ref r).faulty with armed := false }

/-- This many missing periods of LNK. -/
def State.missMany (s : State) : Nat → State
  | 0 => s
  | n + 1 => (s.missed RefId.lnk).missMany n

/-- An arrival on reference `r` that is taken: missing periods of LNK, and a lock or loss, still due are taken first; then it opens
an interval, or ends one, whose length is classed and counted (R167). -/
def State.arrival (s : State) (r : RefId) (length : Nat) : State :=
  let length := s.measured r length
  let s := if r = RefId.lnk then s.missMany s.missingDue else s
  let s := s.takeLockOrLoss r
  let s := if r = RefId.lnk then s.withClock { s.clock with marker := none, missed := 0 } else s
  if !(s.ref r).armed then s.setRef r { s.ref r with armed := true }
  else if soundLength r length then s.soundPeriod r length
  else s.setRef r (s.ref r).faulty

/-- Whether an arrival on reference `r` is taken: the reference is enabled, and for LNK a frame-start marker has come (R165,
R166, log 9). -/
def State.arrivalTaken (s : State) (r : RefId) : Bool :=
  (s.ref r).state != .off && (r != RefId.lnk || s.clock.marker.isSome)

/-- REFERENCE_PERIOD (R167): no effect where no period is taken (R166, R165, log 3). -/
def execReferencePeriod (r : RefId) (length : Nat) (s : State) : Host.Outcome State Fault Refusal :=
  .next (if s.arrivalTaken r then (s.arrival r length).driveNotices else s)

/-- What LNK's markers have left due and nothing has taken yet (log 4): the arrival of a marker that has come, one period per marker
(R190); where none has, the missing periods (R167). -/
def State.takeMarkerDue (s : State) : State :=
  if s.arrivalTaken RefId.lnk then s.arrival RefId.lnk 0
  else if (s.ref RefId.lnk).state != .off then s.missMany s.missingDue
  else s

/-- The marker of a frame's link A0 word is timed: the frame sync plus its offset in bit periods, 256 to a frame of the generator's
present length (R190, log 9). -/
def FrameClock.timeMarker (c : FrameClock) (offset : Option Nat) : FrameClock :=
  let frame := c.rate.getD Config.nominalPeriod
  match offset with
  | none => { c with marker := none, sinceMarker := c.sinceMarker.map fun n => n + 256 * frame }
  | some o => { c with marker := some (c.sinceMarker.getD 0 + o * frame), sinceMarker := some ((256 - o) * frame) }

/-- Whether a missing period of reference `r` is taken: the reference is enabled, it is not INT, whose periods are always sound, and
for LNK the markers have left one out (R167, R190). -/
def State.missingTaken (s : State) (r : RefId) : Bool :=
  (s.ref r).state != .off && r != RefId.int && (r != RefId.lnk || 0 < s.missingDue)

/-- MISSING_PERIOD (R167): no effect where no period is missing (log 3). -/
def execMissingPeriod (r : RefId) (s : State) : Host.Outcome State Fault Refusal :=
  .next (if s.missingTaken r then (s.missed r).driveNotices else s)

/-- The generator's frame: one frame less of the 4,800 in which it moves to a new rate (R170, log 10). -/
def FrameClock.tick (c : FrameClock) : FrameClock := { c with pull := c.pull - 1 }

end Sys2Proof.Machine
end

