-- ==== Sys2Proof/Machine/Loading.lean ====
section
/-! DEFINITION. The loaders: LOAD-BEGIN, LOAD-CHUNK, LOAD-END and the chunk timer's expiry. -/

namespace Sys2Proof.Machine

open Sys2Proof

/-- Sets the valid marks of addresses `a` to `a + n - 1` of region `p` (R116). -/
def State.markRange (s : State) (p : Port) (a n : Nat) (v : Bool) : State :=
  s.withCue { s.cue with valid := tmod s.cue.valid p (fun marks =>
    tmake fun i => if a ≤ i.val ∧ i.val < a + n then v else tget marks i) }

/-- The chunk timeout as taken, in milliseconds: 100 to 10,000 (R120). -/
def chunkTimeoutMs (n : Nat) : Nat := max 100 (min n 10000)

/-- LOAD-BEGIN at its block: R122 checks 2 to 4, then R120; a load in progress is abandoned (R121). -/
def State.taskLoadBegin (s : State) (p : Port) (args : List Byte) : TaskEnd :=
  let offset := byteAt args 0
  let count := wordAt args 1
  let ms := chunkTimeoutMs (wordAt args 3)
  if count = 0 then s.refuse .badArg 0
  else if 256 < offset + count then s.refuse .badArg 0
  else if (s.player p).state ≠ .idle then s.refuse .busy (s.player p).addr
  else
    ((s.markRange p offset count false).setLoader p
      { loading := true
        offset := offset
        declared := count
        received := 0
        timeout := msFrames ms
        timer := some (msFrames ms)
        outcome := if (s.loader p).loading then .abandoned else (s.loader p).outcome }).finish ms

/-- LOAD_BEGIN (R120 to R122): five argument bytes; served under FREEZE. -/
def execLoadBegin (p : Port) (args : List Byte) (s : State) : Host.Outcome State Fault Refusal :=
  .next (s.writeTask p 0x50 args (args.length == 5) false fun t => t.taskLoadBegin p args)

/-- LOAD-CHUNK at its block: R124 checks 2 and 3, then R123. -/
def State.taskLoadChunk (s : State) (p : Port) (args : List Byte) : TaskEnd :=
  let ld := s.loader p
  let n := args.length / 8
  if !ld.loading then s.refuse .notLoading 0
  else if ld.declared < ld.received + n then s.refuse .overrun ld.received
  else
    ((s.withCue { s.cue with mem := s.cue.mem.writeBytes (recordByte p (ld.offset + ld.received) 0) args }).setLoader p
      { ld with received := ld.received + n, timer := some ld.timeout }).finish (ld.received + n)

/-- LOAD_CHUNK (R123, R124): one to eight records of 8 bytes; served under FREEZE. -/
def execLoadChunk (p : Port) (args : List Byte) (s : State) : Host.Outcome State Fault Refusal :=
  .next (s.writeTask p 0x51 args (8 ≤ args.length && args.length ≤ 64 && args.length % 8 == 0) false
    fun t => t.taskLoadChunk p args)

/-- The load of port `p` ends with this outcome; offset and counts are kept (R117). -/
def Loader.ended (ld : Loader) (o : LoadOutcome) : Loader :=
  { ld with loading := false, timer := none, outcome := o }

/-- LOAD-END at its block (R125). -/
def State.taskLoadEnd (s : State) (p : Port) : TaskEnd :=
  let ld := s.loader p
  if !ld.loading then s.refuse .notLoading 0
  else if ld.received = ld.declared then
    ((s.markRange p ld.offset ld.declared true).setLoader p (ld.ended .done)).finish ld.received
  else ⟨s.setLoader p (ld.ended .short), some (Result.plain .ended .short ld.received)⟩

/-- LOAD_END (R125): no argument; served under FREEZE. -/
def execLoadEnd (p : Port) (args : List Byte) (s : State) : Host.Outcome State Fault Refusal :=
  .next (s.writeTask p 0x52 args (args.length == 0) false fun t => t.taskLoadEnd p)

/-- Whether the chunk timer of port `p` has reached zero. -/
def State.chunkTimerDue (s : State) (p : Port) : Bool := (s.loader p).loading && (s.loader p).timer == some 0

/-- The expiry of the chunk timer, where it is due: the load ends TimedOut and its range stays invalid (R119). -/
def State.expireChunkTimer (s : State) (p : Port) : State :=
  if s.chunkTimerDue p then s.setLoader p ((s.loader p).ended .timedOut) else s

/-- CHUNK_TIMER_EXPIRY (R119): no effect where the timer has not reached zero (log 3). -/
def execChunkTimerExpiry (p : Port) (s : State) : Host.Outcome State Fault Refusal :=
  .next (s.expireChunkTimer p)

end Sys2Proof.Machine
end

