-- ==== Sys2Proof/Machine/Meters.lean ====
section
/-! DEFINITION. The Meter Unit: SNAP, READ-SNAP, the capture, the update from a frame's report, and the buffer's expiry. -/

namespace Sys2Proof.Machine

open Sys2Proof

/-- The holder of the snapshot buffer (R158). -/
def State.snapHolder (s : State) : Option Port := s.meter.buffer.map Snapshot.holder

/-- SNAP at its block: R161 check 2, then a waiting capture is recorded and the task goes on (R159). -/
def State.taskSnap (s : State) (p : Port) : TaskEnd :=
  let wait : TaskEnd := ⟨s.withMeter { s.meter with waiting := tset s.meter.waiting p true }, none⟩
  match s.snapHolder with
  | some q => if q = p then wait else s.refuse .locked q.val
  | none => wait

/-- SNAP (R159, R161): no argument; served under FREEZE; stays WORKING until the capture. -/
def execSnap (p : Port) (args : List Byte) (s : State) : Host.Outcome State Fault Refusal :=
  .next (s.writeTask p 0x68 args (args.length == 0) false fun t => t.taskSnap p)

/-- An entry as READ-SNAP returns it: meter number, peak, clip count (R163, R188). -/
def Meter.entryBytes (m : Meter) (i : MeterId) : List Byte :=
  beBytes 1 (i.val + 1) ++ beBytes 3 m.peak ++ beBytes 2 m.clips

/-- The entries `first` to `first + count - 1` of a snapshot, in entry order (R163). -/
def Snapshot.entryRun (b : Snapshot) (first count : Nat) : List Byte :=
  ((List.finRange 32).filter fun i => first ≤ i.val && i.val < first + count).flatMap fun i => (tget b.entries i).entryBytes i

/-- READ-SNAP at its block: R164 checks 2 to 5, then R163. -/
def State.taskReadSnap (s : State) (p : Port) (args : List Byte) : TaskEnd :=
  let first := byteAt args 0
  let count := byteAt args 1
  match s.meter.buffer with
  | none => s.refuse .noData 255
  | some b =>
    if b.holder ≠ p then s.refuse .notHolder b.holder.val
    else
      match settingArg (byteAt args 2) with
      | none => s.refuse .badArg 0
      | some unlock =>
        if 32 < first + count then s.refuse .badArg 0
        else
          (if unlock then s.withMeter { s.meter with buffer := none } else s).finishWith count (b.entryRun first count)

/-- READ_SNAP (R163, R164): three argument bytes; served under FREEZE. -/
def execReadSnap (p : Port) (args : List Byte) (s : State) : Host.Outcome State Fault Refusal :=
  .next (s.writeTask p 0x69 args (args.length == 3) false fun t => t.taskReadSnap p args)

/-- A meter after one entry of a frame's report: magnitude and clip mark (R157). -/
def Meter.report (m : Meter) (magnitude : Nat) (clip : Bool) : Meter :=
  { peak := max m.peak magnitude
    clips := if clip then min (m.clips + 1) 65535 else m.clips }

/-- The lowest-numbered port whose capture waits (R160). -/
def State.captureWinner (s : State) : Option Port := (List.finRange 4).find? fun p => tget s.meter.waiting p

/-- The number of meters whose clip count is above 0 (R159). -/
def MeterUnit.clipped (m : MeterUnit) : Nat := (List.finRange 32).countP fun i => 0 < (tget m.live i).clips

/-- The capture of part 6, if one waits: the live meters copied into the buffer, locked to the lowest-numbered waiting port for
48,000 frames, and reset; its SNAP completes DONE, every other waiting SNAP ends Locked (R157, R159, R160). -/
def State.capture (s : State) : State :=
  match s.captureWinner with
  | none => s
  | some w =>
    let m := s.meter
    let t := s.withMeter { live := tall ⟨0, 0⟩, buffer := some ⟨m.live, w, 48000⟩, waiting := tall false }
    t.deliverAll (fun q => tget m.waiting q) fun q =>
      if q = w then Result.plain .done .none m.clipped else Result.plain .ended .locked w.val

/-- Whether the snapshot buffer's timer has reached zero. -/
def State.snapshotDue (s : State) : Bool := s.meter.buffer.any fun b => b.timer == 0

/-- The expiry of the snapshot buffer, where it is due: emptied and unlocked (R158). -/
def State.expireSnapshot (s : State) : State :=
  if s.snapshotDue then s.withMeter { s.meter with buffer := none } else s

/-- SNAPSHOT_EXPIRY (R158): no effect where the timer has not reached zero (log 3). -/
def execSnapshotExpiry (s : State) : Host.Outcome State Fault Refusal := .next s.expireSnapshot

end Sys2Proof.Machine
end

