-- ==== Sys2Proof/Machine/Ownership.lean ====
section
/-! DEFINITION. Line and bus ownership: CLAIM, RELEASE, HAND, SEIZE, ASSIGN, CLEAR-MATRIX and the expiry of a claim wait. -/

namespace Sys2Proof.Machine

open Sys2Proof

/-- A FREE line granted at once to port `p`: HELD, the attention latch cleared (R85, R91, R59). -/
def State.grantFree (s : State) (l : Line) (p : Port) : State :=
  (s.modLine l fun r => r.granted p).setAttention l false

/-- CLAIM at its block: R86 checks 3 and 4, and R85 by the owner when taken. -/
def State.taskClaim (s : State) (p : Port) (args : List Byte) : TaskEnd :=
  match lineArg (byteAt args 0) with
  | none => s.refuse .badArg 0
  | some l =>
    match (s.line l).owner with
    | none => (s.grantFree l p).finish 255
    | some q =>
      if q = p then ⟨s, some (Result.plain .done .alreadyOwner p.val)⟩
      else if wordAt args 1 = 0 then s.refuse .busy q.val
      else ⟨s.modLine l fun r => { r with waiters := tset r.waiters p (some (claimWait (wordAt args 1))) }, none⟩

/-- CLAIM (R85, R86): three argument bytes; a changing task; stays WORKING while it waits. -/
def execClaim (p : Port) (args : List Byte) (s : State) : Host.Outcome State Fault Refusal :=
  .next (s.writeTask p 0x30 args (args.length == 3) true fun t => t.taskClaim p args)

/-- RELEASE at its block: R88 checks 3 and 4, then R87: FREE without waiters, else granted to the lowest-numbered waiter with
the attention latch cleared (R80). -/
def State.taskRelease (s : State) (p : Port) (args : List Byte) : TaskEnd :=
  match lineArg (byteAt args 0) with
  | none => s.refuse .badArg 0
  | some l =>
    match s.lineDenied p l with
    | some d => s.refuse .notOwner d
    | none =>
      match (s.line l).firstWaiter with
      | none => (s.changeOwner l p none p).finish 255
      | some q => ((s.changeOwner l p (some q) p).setAttention l false).finish q.val

/-- RELEASE (R87, R88): one argument byte; a changing task. -/
def execRelease (p : Port) (args : List Byte) (s : State) : Host.Outcome State Fault Refusal :=
  .next (s.writeTask p 0x31 args (args.length == 1) true fun t => t.taskRelease p args)

/-- HAND at its block: R90 checks 3 to 6, then R89. The detail says whether the target was a waiter. -/
def State.taskHand (s : State) (p : Port) (args : List Byte) : TaskEnd :=
  match lineArg (byteAt args 0), portArg (byteAt args 1) with
  | some l, some q =>
    match s.lineDenied p l with
    | some d => s.refuse .notOwner d
    | none =>
      if q = p then s.refuse .badArg 0
      else ((s.changeOwner l p (some q) p).raise q l .handed).finish (tget (s.line l).waiters q).isSome.toNat
  | _, _ => s.refuse .badArg 0

/-- HAND (R89, R90): two argument bytes; a changing task. -/
def execHand (p : Port) (args : List Byte) (s : State) : Host.Outcome State Fault Refusal :=
  .next (s.writeTask p 0x32 args (args.length == 2) true fun t => t.taskHand p args)

/-- SEIZE at its block: R92 checks 3 and 4, then R91 by the owner when taken. -/
def State.taskSeize (s : State) (p : Port) (args : List Byte) : TaskEnd :=
  if p ≠ 0 then s.refuse .notSenior 255
  else
    match lineArg (byteAt args 0) with
    | none => s.refuse .badArg 0
    | some l =>
      match (s.line l).owner with
      | none => (s.grantFree l 0).finish 255
      | some q =>
        if q = 0 then ⟨s, some (Result.plain .done .alreadyOwner 0)⟩
        else ((s.changeOwner l q (some 0) 0).raise q l .taken).finish q.val

/-- SEIZE (R91, R92): one argument byte; a changing task. -/
def execSeize (p : Port) (args : List Byte) (s : State) : Host.Outcome State Fault Refusal :=
  .next (s.writeTask p 0x33 args (args.length == 1) true fun t => t.taskSeize p args)

/-- Bus `b` passes to a new owner `q`: the table entry, the lines PLACED on it under another owner back to HELD with their hold
source kept, the cells on it of lines that `q` does not own to target 0, the discard request naming it (R93). -/
def State.assignBus (s : State) (b : Bus) (q : Port) : State :=
  let owned : Line → Bool := fun l => (s.line l).owner == some q
  let t := s.mapLines fun l r =>
    if r.status = .placed ∧ r.bus = some b ∧ !owned l then { r with status := .held, bus := none } else r
  let t := t.withLineTable { t.lineTable with busOwner := tset t.lineTable.busOwner b q }
  let t := t.withMix (t.mix.writeCells
    (fun c k => k == b && (match c.line? with | some l => !owned l | none => false)) 0)
  t.discard (Action.namesBus b)

/-- ASSIGN at its block: R95 checks 3 to 5, then R93. -/
def State.taskAssign (s : State) (p : Port) (args : List Byte) : TaskEnd :=
  if p ≠ 0 then s.refuse .notSenior 255
  else
    match busArg (byteAt args 0), portArg (byteAt args 1) with
    | some b, some q =>
      if s.busOwner b = q then s.finish q.val else (s.assignBus b q).finish (s.busOwner b).val
    | _, _ => s.refuse .badArg 0

/-- ASSIGN (R93, R95): two argument bytes; a changing task. -/
def execAssign (p : Port) (args : List Byte) (s : State) : Host.Outcome State Fault Refusal :=
  .next (s.writeTask p 0x34 args (args.length == 2) true fun t => t.taskAssign p args)

/-- Whether port `q` waits on some line (R78). -/
def State.waitsOnLine (s : State) (q : Port) : Bool :=
  (List.finRange 24).any fun l => (tget (s.line l).waiters q).isSome

/-- The number of lines that have an owner. -/
def State.ownedCount (s : State) : Nat := (List.finRange 24).countP fun l => (s.line l).owner.isSome

/-- CLEAR-MATRIX (R96): TAKEN and TALK-ENDED raised, every owned line cleaned up and FREE, every waiting CLAIM ended Cleared,
every cell target and the park gain target 0, every player halted with reason Cleared and its group discarded. -/
def State.clearAll (s : State) : State :=
  let owned : Line → Bool := fun l => (s.line l).owner.isSome
  let t := s.withNotice (s.notice.raiseWhere fun p l k =>
    match k with
    | .taken => (s.line l).owner == some p
    | .talkEnded => p != 0 && (s.line l).talk.any fun x => x.talker == p
    | _ => false)
  let t := t.mapLines fun l r => if owned l then r.cleaned none else { r with waiters := tall none }
  let m := (t.mix.cleaned owned).writeCells (fun _ _ => true) 0
  let t := t.withMix { m with parkGain := { m.parkGain with target := 0 } }
  let t := t.endPlayers (fun _ => true) .cleared
  t.deliverAll (fun q => s.waitsOnLine q) fun _ => Result.plain .ended .cleared 255

/-- CLEAR-MATRIX at its block: R98 check 3, then R96. The detail is the number of lines that were owned. -/
def State.taskClearMatrix (s : State) (p : Port) : TaskEnd :=
  if p ≠ 0 then s.refuse .notSenior 255 else s.clearAll.finish s.ownedCount

/-- CLEAR_MATRIX (R96, R98): no argument; a changing task. -/
def execClearMatrix (p : Port) (args : List Byte) (s : State) : Host.Outcome State Fault Refusal :=
  .next (s.writeTask p 0x35 args (args.length == 0) true fun t => t.taskClearMatrix p)

/-- Port `p` leaves the waiter set of line `l` without becoming its owner, and its CLAIM ends for this reason with the owner in
the detail (R82). -/
def State.endWait (s : State) (l : Line) (p : Port) (why : Reason) : State :=
  (s.modLine l fun r => { r with waiters := tset r.waiters p none }).deliver p
    (Result.plain .ended why (portDetail (s.line l).owner))

/-- Whether the remaining wait of port `p` on line `l` has reached zero. -/
def State.claimWaitDue (s : State) (l : Line) (p : Port) : Bool := tget (s.line l).waiters p == some (.frames 0)

/-- The expiry of a claim wait, where it is due (R79). -/
def State.expireClaimWait (s : State) (l : Line) (p : Port) : State :=
  if s.claimWaitDue l p then s.endWait l p .timeout else s

/-- CLAIM_WAIT_EXPIRY (R79): no effect where the remaining wait has not reached zero (log 3). -/
def execClaimWaitExpiry (l : Line) (p : Port) (s : State) : Host.Outcome State Fault Refusal :=
  .next (if s.claimWaitDue l p then (s.expireClaimWait l p).driveNotices else s)

end Sys2Proof.Machine
end

