-- ==== Sys2Proof/Machine/Talkback.lean ====
section
/-! DEFINITION. Talkback: TALK and UNTALK, with the rules their cue steps share (R112). -/

namespace Sys2Proof.Machine

open Sys2Proof

/-- R108 checks 4 to 6: the reason and detail of a refusal, or none where port `p` may take the slot of line `l`. -/
def State.talkDenied (s : State) (p : Port) (l : Line) : Option (Reason × Nat) :=
  match (s.line l).owner with
  | none => some (.notOwner, 255)
  | some o =>
    if o ≠ p ∧ p ≠ 0 then some (.notOwner, o.val)
    else
      match (s.line l).talk with
      | some t => if t.talker < p then some (.busy, t.talker.val) else none
      | none => none

/-- The slot is taken, updated or passed to the requester, with TALK-ENDED to a displaced port (R101, R107). -/
def State.talkOn (s : State) (l : Line) (t : TalkSlot) : State :=
  (s.raiseTalkEnded l t.talker).setTalk l t

/-- TALK at its block: R108 checks 2 to 6, then R107. The detail is the holder before, 255 if the slot was empty. -/
def State.taskTalk (s : State) (p : Port) (args : List Byte) : TaskEnd :=
  match lineArg (byteAt args 0), sourceArg (byteAt args 1) with
  | some l, some x =>
    match s.talkDenied p l with
    | some (why, d) => s.refuse why d
    | none =>
      (s.talkOn l ⟨p, x, wordAt args 2, clampDuck (wordAt args 4)⟩).finish
        (portDetail ((s.line l).talk.map TalkSlot.talker))
  | _, _ => s.refuse .badArg 0

/-- TALK (R107, R108): six argument bytes; served under FREEZE (R106). -/
def execTalk (p : Port) (args : List Byte) (s : State) : Host.Outcome State Fault Refusal :=
  .next (s.writeTask p 0x40 args (args.length == 6) false fun t => t.taskTalk p args)

/-- R111 check 3: the holder in the detail where it is not port `p`, 255 if there is none. -/
def State.untalkDenied (s : State) (p : Port) (l : Line) : Option Nat :=
  match (s.line l).talk with
  | some t => if t.talker = p then none else some t.talker.val
  | none => some 255

/-- UNTALK at its block: R111 checks 2 and 3, then R110. The detail is the talk level's current value. -/
def State.taskUntalk (s : State) (p : Port) (args : List Byte) : TaskEnd :=
  match lineArg (byteAt args 0) with
  | some l =>
    match s.untalkDenied p l with
    | some d => s.refuse .notHolder d
    | none => (s.clearTalks fun k => k == l).finish (tget s.mix.talkLevel l).current
  | none => s.refuse .badArg 0

/-- UNTALK (R110, R111): one argument byte; served under FREEZE (R106). -/
def execUntalk (p : Port) (args : List Byte) (s : State) : Host.Outcome State Fault Refusal :=
  .next (s.writeTask p 0x41 args (args.length == 1) false fun t => t.taskUntalk p args)

end Sys2Proof.Machine
end

