-- ==== Sys2Proof/Machine/Players.lean ====
section
/-! DEFINITION. The Cue Players: RUN, HALT, SEQ-STATUS, the examination of a step and each kind of step, and the players'
timers. -/

namespace Sys2Proof.Machine

open Sys2Proof

/-- RUN at its block: R142 checks 2 to 4, then R141. -/
def State.taskRun (s : State) (p : Port) (args : List Byte) : TaskEnd :=
  let a := wordAt args 0
  if 255 < a then s.refuse .badArg 0
  else if (s.player p).state ≠ .idle then s.refuse .busy (s.player p).addr
  else if (s.loader p).loading then s.refuse .busy (s.loader p).received
  else (s.setPlayer p { s.player p with state := .stepping, addr := a }).finish a

/-- RUN (R141, R142): two argument bytes; served under FREEZE. -/
def execRun (p : Port) (args : List Byte) (s : State) : Host.Outcome State Fault Refusal :=
  .next (s.writeTask p 0x58 args (args.length == 2) false fun t => t.taskRun p args)

/-- HALT at its block (R143): detail 256 where the player is IDLE. -/
def State.taskHalt (s : State) (p : Port) : TaskEnd :=
  if (s.player p).state = .idle then s.finish 256
  else (s.endPlayer p .halted (s.player p).addr).finish (s.player p).addr

/-- HALT (R143): no argument; served under FREEZE. -/
def execHalt (p : Port) (args : List Byte) (s : State) : Host.Outcome State Fault Refusal :=
  .next (s.writeTask p 0x59 args (args.length == 0) false fun t => t.taskHalt p)

/-- The output of SEQ-STATUS (R144, R188). -/
def State.seqStatusOutput (s : State) (p : Port) : List Byte :=
  let ld := s.loader p
  let x := s.player p
  beBytes 1 ld.loading.toNat ++ beBytes 1 ld.offset ++ beBytes 2 ld.declared ++ beBytes 2 ld.received
    ++ beBytes 3 (ld.timer.getD 0) ++ beBytes 1 ld.outcome.code ++ beBytes 1 x.state.code ++ beBytes 1 x.addr
    ++ x.state.timer.bytes ++ beBytes 1 x.endReason.code ++ beBytes 1 x.endReason.faultCode ++ beBytes 1 x.endAddr

/-- SEQ-STATUS at its block (R144). -/
def State.taskSeqStatus (s : State) (p : Port) : TaskEnd := s.finishWith (s.player p).addr (s.seqStatusOutput p)

/-- SEQ_STATUS (R144): no argument; served under FREEZE. -/
def execSeqStatus (p : Port) (args : List Byte) (s : State) : Host.Outcome State Fault Refusal :=
  .next (s.writeTask p 0x5A args (args.length == 0) false fun t => t.taskSeqStatus p)

/-! ## Examining a step (R131) -/

/-- A step that may stand at address 255: END, WAIT or AWAIT (R131 check 3). -/
def StepBody.mayStandLast : StepBody → Bool
  | .wait _ => true
  | .await _ _ _ _ => true
  | .stop => true
  | _ => false

/-- A step that FREEZE holds: SET-CELL, SET-TRIM, PLACE, TONE or GROUP (R131 check 4). -/
def StepBody.heldByFreeze : StepBody → Bool
  | .act _ => true
  | .group _ => true
  | _ => false

/-- Port `p`'s player examines the step at its address (R130). -/
def State.isStepping (s : State) (p : Port) : Bool := (s.player p).state == .stepping

/-- Every PAUSED player is told that FREEZE is released: it is STEPPING at the same address, and examines its held step again
(R139). -/
def State.tellPaused (s : State) : State :=
  s.withPlayers (tmake fun p => if (s.player p).state = .paused then { s.player p with state := .stepping } else s.player p)

/-- Port `p`'s player examines a valid record of this kind code. -/
def State.standsAt (s : State) (p : Port) (kind : Nat) : Bool :=
  s.isStepping p && s.recordValid p (s.player p).addr && byteAt (s.record p (s.player p).addr) 0 == kind

/-- The player goes on, STEPPING, to the next address (R131). -/
def State.stepDone (s : State) (p : Port) : State :=
  s.setPlayer p { s.player p with addr := (s.player p).addr + 1 }

/-- The player of port `p` examines a valid record (R131 checks 2 to 4), and carries the step out. -/
def State.examine (s : State) (p : Port) (carry : StepBody → State) : State :=
  let a := (s.player p).addr
  match decodeStep (s.record p a) with
  | none => s.endPlayer p (.fault .badStep) a
  | some b =>
    if a = 255 ∧ !b.mayStandLast then s.endPlayer p (.fault .ranOff) a
    else if b.heldByFreeze && s.ports.freeze then s.setPlayer p { s.player p with state := .paused }
    else carry b

/-- A step of one kind, taken where the player stands at a record of that kind; no effect elsewhere (log 3). -/
def State.takeStep (s : State) (p : Port) (kind : Nat) (carry : StepBody → State) : Host.Outcome State Fault Refusal :=
  .next (if s.standsAt p kind then (s.examine p carry).driveNotices else s)

/-! ## Steps that change lines and gains (R132, R133) -/

/-- SET-CELL, SET-TRIM, PLACE and TONE steps outside a group: the mirrored task's ownership checks and effect (R132). -/
def State.carryAction (s : State) (p : Port) : StepBody → State
  | .act a =>
    match s.actionDenied p a with
    | some _ => s.endPlayer p (.fault .notOwner) (s.player p).addr
    | none => (s.performAction a).stepDone p
  | _ => s

/-- STEP_SET_CELL (R132, R42). -/
def execStepSetCell (p : Port) (s : State) : Host.Outcome State Fault Refusal := s.takeStep p 0x01 fun b => s.carryAction p b

/-- STEP_SET_TRIM (R132, R65). -/
def execStepSetTrim (p : Port) (s : State) : Host.Outcome State Fault Refusal := s.takeStep p 0x02 fun b => s.carryAction p b

/-- STEP_PLACE (R132, R63). -/
def execStepPlace (p : Port) (s : State) : Host.Outcome State Fault Refusal := s.takeStep p 0x03 fun b => s.carryAction p b

/-- STEP_TONE (R132, R67). -/
def execStepTone (p : Port) (s : State) : Host.Outcome State Fault Refusal := s.takeStep p 0x06 fun b => s.carryAction p b

/-- TALK-ON by the rules of TALK (R112, R133). -/
def State.carryTalkOn (s : State) (p : Port) : StepBody → State
  | .talkOn l x gain duck =>
    match s.talkDenied p l with
    | some _ => s.endPlayer p (.fault .notOwner) (s.player p).addr
    | none => (s.talkOn l ⟨p, x, gain, duck⟩).stepDone p
  | _ => s

/-- STEP_TALK_ON (R133). -/
def execStepTalkOn (p : Port) (s : State) : Host.Outcome State Fault Refusal := s.takeStep p 0x04 fun b => s.carryTalkOn p b

/-- TALK-OFF by the rules of UNTALK (R112, R133). -/
def State.carryTalkOff (s : State) (p : Port) : StepBody → State
  | .talkOff l =>
    match s.untalkDenied p l with
    | some _ => s.endPlayer p (.fault .notOwner) (s.player p).addr
    | none => (s.clearTalks fun k => k == l).stepDone p
  | _ => s

/-- STEP_TALK_OFF (R133). -/
def execStepTalkOff (p : Port) (s : State) : Host.Outcome State Fault Refusal := s.takeStep p 0x05 fun b => s.carryTalkOff p b

/-! ## Steps that wait (R134, R135) -/

/-- WAIT: the player enters WAITING (R134). -/
def State.carryWait (s : State) (p : Port) : StepBody → State
  | .wait n => s.setPlayer p { s.player p with state := .waiting n }
  | _ => s

/-- STEP_WAIT (R134). -/
def execStepWait (p : Port) (s : State) : Host.Outcome State Fault Refusal := s.takeStep p 0x07 fun b => s.carryWait p b

/-- Whether an AWAIT condition holds on a line record (R135). -/
def Condition.holds (r : LineRec) : Condition → Bool
  | .attentionLatched => r.attention
  | .connected => r.connected
  | .disconnected => !r.connected

/-- AWAIT: on at once where the condition holds, else AWAITING (R135). -/
def State.carryAwait (s : State) (p : Port) : StepBody → State
  | .await l c t m =>
    if c.holds (s.line l) then s.setPlayer p (s.player p).goOn
    else s.setPlayer p { s.player p with state := .awaiting t l c m }
  | _ => s

/-- STEP_AWAIT (R135). -/
def execStepAwait (p : Port) (s : State) : Host.Outcome State Fault Refusal := s.takeStep p 0x08 fun b => s.carryAwait p b

/-! ## Groups (R137, R138) -/

/-- The checks of R137 on the `n` steps from address `a` on, in address order: the staged actions, or the first fault with its
address. -/
def State.groupActions (s : State) (p : Port) : Nat → Nat → Except (PlayerFault × Nat) (List Staged)
  | 0, _ => .ok []
  | n + 1, a =>
    if !s.recordValid p a then .error (.invalid, a)
    else
      match decodeStep (s.record p a) with
      | none => .error (.badStep, a)
      | some (.act x) =>
        if a = 255 then .error (.ranOff, a)
        else
          match s.actionDenied p x with
          | some _ => .error (.notOwner, a)
          | none =>
            match s.groupActions p n (a + 1) with
            | .ok rest => .ok (⟨a, x⟩ :: rest)
            | .error e => .error e
      | some _ => .error (.badGroup, a)

/-- GROUP: the checks and the staging as one action; PENDING at the GROUP step, or the fault at the failing step (R137,
R138). -/
def State.carryGroup (s : State) (p : Port) : StepBody → State
  | .group n =>
    match s.groupActions p n ((s.player p).addr + 1) with
    | .error (k, a) => s.endPlayer p (.fault k) a
    | .ok g =>
      (s.setPlayer p { s.player p with state := .pending }).withMix
        { s.mix with staging := tset s.mix.staging p (some g) }
  | _ => s

/-- STEP_GROUP (R137). -/
def execStepGroup (p : Port) (s : State) : Host.Outcome State Fault Refusal := s.takeStep p 0x09 fun b => s.carryGroup p b

/-- END: the player ends with reason End (R132). -/
def State.carryEnd (s : State) (p : Port) : StepBody → State
  | .stop => s.endPlayer p .ended (s.player p).addr
  | _ => s

/-- STEP_END (R132). -/
def execStepEnd (p : Port) (s : State) : Host.Outcome State Fault Refusal := s.takeStep p 0x0A fun b => s.carryEnd p b

/-- EXAMINE_INVALID_STEP (R131 check 1): Fault Invalid; no effect where no player stands at an invalid record (log 3). -/
def execExamineInvalidStep (p : Port) (s : State) : Host.Outcome State Fault Refusal :=
  .next (if s.isStepping p && !s.recordValid p (s.player p).addr then
    s.endPlayer p (.fault .invalid) (s.player p).addr else s)

/-- EXAMINE_MALFORMED_STEP (R131 check 2): Fault BadStep; no effect where no player stands at a valid malformed record (log 3,
log 17). -/
def execExamineMalformedStep (p : Port) (s : State) : Host.Outcome State Fault Refusal :=
  .next (if s.isStepping p && s.recordValid p (s.player p).addr
      && (decodeStep (s.record p (s.player p).addr)).isNone then
    s.endPlayer p (.fault .badStep) (s.player p).addr else s)

/-! ## Timers of the players (R134, R136) -/

/-- Whether the WAIT timer of port `p`'s player has reached zero. -/
def State.waitTimerDue (s : State) (p : Port) : Bool := (s.player p).state == .waiting 0

/-- The expiry of a WAIT timer, where it is due (R134). -/
def State.expireWaitTimer (s : State) (p : Port) : State :=
  if s.waitTimerDue p then s.setPlayer p (s.player p).goOn else s

/-- WAIT_TIMER_EXPIRY (R134): no effect where the timer has not reached zero (log 3). -/
def execWaitTimerExpiry (p : Port) (s : State) : Host.Outcome State Fault Refusal := .next (s.expireWaitTimer p)

/-- The expiry of an AWAIT timer, where it is due: Timeout in STOP mode, on in GO-ON mode (R136). -/
def State.expireAwaitTimer (s : State) (p : Port) : State :=
  match (s.player p).state with
  | .awaiting (.frames 0) _ _ .stop => s.setPlayer p ((s.player p).ended .timeout (s.player p).addr)
  | .awaiting (.frames 0) _ _ .goOn => s.setPlayer p (s.player p).goOn
  | _ => s

/-- AWAIT_TIMEOUT (R136): no effect where the timer has not reached zero (log 3). -/
def execAwaitTimeout (p : Port) (s : State) : Host.Outcome State Fault Refusal := .next (s.expireAwaitTimer p)

end Sys2Proof.Machine
end

