-- ==== Sys2Proof/Machine/Audio.lean ====
section
/-! DEFINITION. The frame event: groups, ramps, products, buses, returns, meters and tone phase (R9), with the frame timers. -/

namespace Sys2Proof.Machine

open Sys2Proof

/-! ## Rounding and saturation -/

/-- Rescaling: floor((v + 16,384) / 32,768) (R12). Division of integers by a positive number rounds down. -/
def rescale (v : Int) : Int := (v + 16384) / 32768

/-- Saturation to the sample range (R2, R13). -/
def sat (v : Int) : Int := if v < -8388608 then -8388608 else if 8388607 < v then 8388607 else v

/-- A saturated output with its clip mark, set if and only if saturation changed the value (R13). -/
def satClip (v : Int) : Int × Bool := (sat v, sat v != v)

/-! ## Groups and ramps (parts 1 and 2) -/

/-- Applies the actions of a group in step order (R38). -/
def State.applyGroup (s : State) (g : List Staged) : State := g.foldl (fun t a => t.performAction a.action) s

/-- Applies the pending group of port `p`, if there is one, removes it, and tells its player, which goes on after the group
(R38, R138). -/
def State.applyPending (s : State) (p : Port) : State :=
  match tget s.mix.staging p with
  | none => s
  | some g =>
    let t := s.applyGroup g
    let t := t.withMix { t.mix with staging := tset t.mix.staging p none }
    t.setPlayer p { t.player p with state := .stepping, addr := (t.player p).addr + g.length + 1 }

/-- Part 1: every pending group, in ascending port order (R38; any order gives the same, R39). -/
def State.applyGroups (s : State) : State := (List.finRange 4).foldl State.applyPending s

/-- One ramp step: at most 128 toward the target (R32). -/
def Ramp.step (r : Ramp) : Ramp :=
  { r with current :=
      if r.current < r.target then min (r.current + 128) r.target
      else if r.target < r.current then max (r.current - 128) r.target
      else r.current }

/-- Part 2: steps each of the 369 ramped coefficients (R32). -/
def MixEngine.stepRamps (m : MixEngine) : MixEngine :=
  { m with
    cells := tmake fun c => tmake fun b => (tget (tget m.cells c) b).step
    trim := tmake fun l => (tget m.trim l).step
    talkLevel := tmake fun l => (tget m.talkLevel l).step
    parkGain := m.parkGain.step }

/-! ## Inputs (part 3) -/

/-- The sample received on a contributor's channel: contributor n is on link (n - 1) / 8, channel (n - 1) mod 8 + 1 (R4). -/
def rxSample (rx : InputFrame) (c : Contributor) : Int :=
  (channelOf (tget rx ⟨c.val / 8, by omega⟩) ⟨c.val % 8, by omega⟩).toInt

/-- The contributor input: a source's sample; a line's sample while it is connected, else 0 (R11). -/
def State.input (s : State) (rx : InputFrame) (c : Contributor) : Int :=
  match c.line? with
  | some l => if (s.line l).connected then rxSample rx c else 0
  | none => rxSample rx c

/-! ## Buses (part 4) -/

/-- Stage A: the product of a contributor on a bus, exact (R14). -/
def State.product (s : State) (x : Table 40 Int) (c : Contributor) (b : Bus) : Int :=
  tget x c * ((tget (tget s.mix.cells c) b).current : Int)

/-- Stage B: the bus accumulator, the exact sum of the 40 products (R15). -/
def State.accumulator (s : State) (x : Table 40 Int) (b : Bus) : Int :=
  ((List.finRange 40).map fun c => s.product x c b).sum

/-- The output of a bus with its clip mark (R16). -/
def busOutput (acc : Int) : Int × Bool := satClip (rescale acc)

/-! ## Returns (part 5) -/

/-- The source heard by a line that is not PLACED: its hold source while HELD with one, else the park source (R18). -/
def State.feedSource (s : State) (l : Line) : Source :=
  match (s.line l).status, (s.line l).hold with
  | .held, some h => h
  | _, _ => s.mix.parkSource

/-- Stage C: the program term. PLACED: the bus accumulator less the line's own product (R17). FREE or HELD: the source's input
at the park gain (R18). -/
def State.programTerm (s : State) (x : Table 40 Int) (acc : Table 8 Int) (l : Line) : Int :=
  match (s.line l).status, (s.line l).bus with
  | .placed, some b => tget acc b - s.product x (Line.contributor l) b
  | _, _ => tget x (Source.contributor (s.feedSource l)) * (s.mix.parkGain.current : Int)

/-- Stages D and E: the program level (R19, R20). -/
def State.programLevel (s : State) (x : Table 40 Int) (acc : Table 8 Int) (l : Line) : Int :=
  rescale (rescale (s.programTerm x acc l) * ((tget s.mix.trim l).current : Int))

/-- Stage F: the talk term (R22). -/
def State.talkTerm (s : State) (x : Table 40 Int) (l : Line) : Int :=
  rescale (tget x (Source.contributor (tget s.mix.lastTalk l)) * ((tget s.mix.talkLevel l).current : Int))

/-- Stage G: the built return with its clip mark (R23). -/
def State.builtReturn (s : State) (x : Table 40 Int) (acc : Table 8 Int) (l : Line) : Int × Bool :=
  satClip (s.programLevel x acc l + s.talkTerm x l)

/-- The line-up tone sample (R25). -/
def toneSample (phase : Nat) : Int := if phase < 24 then 1056000 else -1056000

/-- The return of a line with its clip mark: silence before tone before the built return (R26). -/
def State.lineReturn (s : State) (x : Table 40 Int) (acc : Table 8 Int) (l : Line) : Int × Bool :=
  if !(s.line l).connected then (0, false)
  else if (s.line l).tone then (toneSample s.mix.tonePhase, false)
  else s.builtReturn x acc l

/-- The 32 outputs of a frame event in meter order, each with its clip mark: the returns, then the bus outputs (R27). -/
def State.outputs (s : State) (rx : InputFrame) : Table 32 (Int × Bool) :=
  let x : Table 40 Int := tmake fun c => s.input rx c
  let acc : Table 8 Int := tmake fun b => s.accumulator x b
  tmake fun i => if h : i.val < 24 then s.lineReturn x acc ⟨i.val, h⟩ else busOutput (tget acc ⟨i.val - 24, by omega⟩)

/-- The sample on channel `n` of output link B0 to B3: returns of lines 1 to 24, then the outputs of the buses (R5). -/
def State.outputChannel (s : State) (link : Fin 4) (n : Fin 8) : Int := tget s.mix.out ⟨link.val * 8 + n.val, by omega⟩

/-- What output link B0 to B3 carries in the next frame: its eight samples, most significant bit first, then zeros (R190); nothing
while no frames are produced (R8). -/
def State.outputFrame (s : State) (link : Fin 4) : Option LinkFrame :=
  if s.clock.running then some (frameOf fun n => BitVec.ofInt 24 (s.outputChannel link n)) else none

/-! ## The frame timers (R3, log 5) -/

/-- A remaining time after one more frame. -/
def TimeLeft.tick : TimeLeft → TimeLeft
  | .frames n => .frames (n - 1)
  | .unlimited => .unlimited

/-- A player's timer after one more frame (R134, R136). -/
def PlayerState.tick : PlayerState → PlayerState
  | .waiting n => .waiting (n - 1)
  | .awaiting t l c m => .awaiting t.tick l c m
  | x => x

/-- Every frame timer one down: claim waits (R79), chunk timers (R119), players' timers (R134), the snapshot timer (R158), and
the generator's move to a new rate (R170). -/
def State.tickTimers (s : State) : State :=
  let t := s.mapLines fun _ r => { r with waiters := tmake fun p => (tget r.waiters p).map TimeLeft.tick }
  let t := t.withCue { t.cue with loaders := tmake fun p =>
    { t.loader p with timer := (t.loader p).timer.map fun n => n - 1 } }
  let t := t.withPlayers (tmake fun p => { t.player p with state := (t.player p).state.tick })
  let t := t.withMeter { t.meter with buffer := t.meter.buffer.map fun b => { b with timer := b.timer - 1 } }
  t.withClock t.clock.tick

/-- The due expiries of port `p`: its claim wait, its chunk timer, its player's timers. -/
def State.expirePort (s : State) (p : Port) : State :=
  ((((List.finRange 24).foldl (fun t l => t.expireClaimWait l p) s).expireChunkTimer p).expireWaitTimer p).expireAwaitTimer p

/-- Every expiry that is due and has not been taken (log 4). -/
def State.expireOverdue (s : State) : State := ((List.finRange 4).foldl State.expirePort s).expireSnapshot

/-! ## The frame event -/

/-- Part 6: the meters take the report, and a waiting capture is carried out (R157). -/
def State.reportMeters (s : State) (o : Table 32 (Int × Bool)) : State :=
  (s.withMeter { s.meter with
    live := tmake fun i => (tget s.meter.live i).report (tget o i).1.natAbs (tget o i).2 }).capture

/-- The seven parts of R9. -/
def State.frameParts (s : State) (rx : InputFrame) : State :=
  let s := s.applyGroups
  let s := s.withMix s.mix.stepRamps
  let o := s.outputs rx
  let s := (s.withMix { s.mix with out := tmake fun i => (tget o i).1 }).reportMeters o
  s.withMix { s.mix with tonePhase := (s.mix.tonePhase + 1) % 48 }

/-- FRAME_EVENT (R9): while the generator runs, a frame ends: expiries still due are taken (log 4), every frame timer goes down by
one (log 5), and the seven parts are carried out. No frame event occurs before frames begin (R8). -/
def execFrameEvent (rx : InputFrame) (s : State) : Host.Outcome State Fault Refusal :=
  .next (if s.clock.running then ((s.expireOverdue.tickTimers).frameParts rx).driveNotices else s)

end Sys2Proof.Machine
end

