-- ==== Sys2Proof/Machine/Lines.lean ====
section
/-! DEFINITION. The line tasks that do not change the owner: PLACE, TRIM, TONE, ACK-ATTN and LINE-STATUS. -/

namespace Sys2Proof.Machine

open Sys2Proof

/-- PLACE at its block: R64 checks 3 to 7, then R63. The detail is the return bus before, 0 if the line was HELD. -/
def State.taskPlace (s : State) (p : Port) (args : List Byte) : TaskEnd :=
  match lineArg (byteAt args 0), placeBusArg (byteAt args 1), holdArg (byteAt args 2) with
  | some l, some bus, some hold =>
    match s.placeDenied p l bus with
    | some d => s.refuse .notOwner d
    | none => (s.performAction (.place l bus hold)).finish (busNumber (s.line l).bus)
  | _, _, _ => s.refuse .badArg 0

/-- PLACE (R63, R64): three argument bytes; a changing task. -/
def execPlace (p : Port) (args : List Byte) (s : State) : Host.Outcome State Fault Refusal :=
  .next (s.writeTask p 0x20 args (args.length == 3) true fun t => t.taskPlace p args)

/-- TRIM at its block: R66 checks 3 and 4, then R65. The detail is the stored trim before. -/
def State.taskTrim (s : State) (p : Port) (args : List Byte) : TaskEnd :=
  match lineArg (byteAt args 0) with
  | some l =>
    match s.lineDenied p l with
    | some d => s.refuse .notOwner d
    | none => (s.performAction (.trim l (wordAt args 1))).finish (tget s.mix.storedTrim l)
  | none => s.refuse .badArg 0

/-- TRIM (R65, R66): three argument bytes; a changing task. -/
def execTrim (p : Port) (args : List Byte) (s : State) : Host.Outcome State Fault Refusal :=
  .next (s.writeTask p 0x21 args (args.length == 3) true fun t => t.taskTrim p args)

/-- TONE at its block: R68 checks 3 to 5, then R67. The detail is the tone field before. -/
def State.taskTone (s : State) (p : Port) (args : List Byte) : TaskEnd :=
  match lineArg (byteAt args 0), settingArg (byteAt args 1) with
  | some l, some on =>
    match s.lineDenied p l with
    | some d => s.refuse .notOwner d
    | none => (s.performAction (.tone l on)).finish (s.line l).tone.toNat
  | _, _ => s.refuse .badArg 0

/-- TONE (R67, R68): two argument bytes; a changing task. -/
def execTone (p : Port) (args : List Byte) (s : State) : Host.Outcome State Fault Refusal :=
  .next (s.writeTask p 0x22 args (args.length == 2) true fun t => t.taskTone p args)

/-- ACK-ATTN at its block: R70 checks 2 and 3, then R69. A FREE line may be acknowledged by any port. -/
def State.taskAckAttn (s : State) (p : Port) (args : List Byte) : TaskEnd :=
  match lineArg (byteAt args 0) with
  | some l =>
    match (s.line l).owner with
    | some q =>
      if q = p then (s.setAttention l false).finish (s.line l).attention.toNat else s.refuse .notOwner q.val
    | none => (s.setAttention l false).finish (s.line l).attention.toNat
  | none => s.refuse .badArg 0

/-- ACK_ATTN (R69, R70): one argument byte; served under FREEZE. -/
def execAckAttn (p : Port) (args : List Byte) (s : State) : Host.Outcome State Fault Refusal :=
  .next (s.writeTask p 0x23 args (args.length == 1) false fun t => t.taskAckAttn p args)

/-- The waiters of a line record in ascending port order, each as port and remaining frames (R71, R188). -/
def LineRec.waiterBytes (r : LineRec) : List (List Byte) :=
  (List.finRange 4).filterMap fun q => (tget r.waiters q).map fun t => BitVec.ofNat 8 q.val :: t.bytes

/-- The output of LINE-STATUS (R71, R188). -/
def State.lineStatusOutput (s : State) (l : Line) : List Byte :=
  let r := s.line l
  let talk : List Byte :=
    match r.talk with
    | some t => beBytes 1 t.talker.val ++ beBytes 1 (t.source.val + 1) ++ beBytes 2 t.gain ++ beBytes 2 t.duck
    | none => beBytes 1 255 ++ beBytes 1 0 ++ beBytes 2 0 ++ beBytes 2 0
  beBytes 1 (l.val + 1) ++ beBytes 1 r.connected.toNat ++ beBytes 1 r.attention.toNat ++ beBytes 1 r.status.code
    ++ beBytes 1 (portDetail r.owner) ++ beBytes 1 (busNumber r.bus) ++ beBytes 1 (sourceNumber r.hold)
    ++ beBytes 1 r.tone.toNat ++ beBytes 2 (tget s.mix.storedTrim l) ++ talk
    ++ beBytes 1 r.waiterBytes.length ++ r.waiterBytes.flatten

/-- LINE-STATUS at its block: R72 check 2, then R71. The detail is the owner. -/
def State.taskLineStatus (s : State) (args : List Byte) : TaskEnd :=
  match lineArg (byteAt args 0) with
  | some l => s.finishWith (portDetail (s.line l).owner) (s.lineStatusOutput l)
  | none => s.refuse .badArg 0

/-- LINE_STATUS (R71, R72): one argument byte; served under FREEZE. -/
def execLineStatus (p : Port) (args : List Byte) (s : State) : Host.Outcome State Fault Refusal :=
  .next (s.writeTask p 0x24 args (args.length == 1) false fun t => t.taskLineStatus args)

end Sys2Proof.Machine
end

