-- ==== Sys2Proof/Machine/Matrix.lean ====
section
/-! DEFINITION. Contribution matrix and park feed: SET-CELL and PARK. -/

namespace Sys2Proof.Machine

open Sys2Proof

/-- SET-CELL at its block: R43 checks 3 to 6, then R42. -/
def State.taskSetCell (s : State) (p : Port) (args : List Byte) : TaskEnd :=
  match contributorArg (byteAt args 0), busArg (byteAt args 1) with
  | some c, some b =>
    match s.cellDenied p c b with
    | some d => s.refuse .notOwner d
    | none => (s.performAction (.cell c b (wordAt args 2))).finish (tget (tget s.mix.cells c) b).current
  | _, _ => s.refuse .badArg 0

/-- SET_CELL (R42, R43): four argument bytes; a changing task. -/
def execSetCell (p : Port) (args : List Byte) (s : State) : Host.Outcome State Fault Refusal :=
  .next (s.writeTask p 0x10 args (args.length == 4) true fun t => t.taskSetCell p args)

/-- PARK at its block: R46 checks 3 and 4, then R45. -/
def State.taskPark (s : State) (p : Port) (args : List Byte) : TaskEnd :=
  if p ≠ 0 then s.refuse .notSenior 255
  else
    match sourceArg (byteAt args 0) with
    | some x => (s.withMix (s.mix.writePark x (wordAt args 1))).finish s.mix.parkGain.current
    | none => s.refuse .badArg 0

/-- PARK (R45, R46): three argument bytes; a changing task. -/
def execPark (p : Port) (args : List Byte) (s : State) : Host.Outcome State Fault Refusal :=
  .next (s.writeTask p 0x11 args (args.length == 3) true fun t => t.taskPark p args)

end Sys2Proof.Machine
end

