-- ==== Sys2Proof/Machine/Notices.lean ====
section
/-! DEFINITION. The Notice Unit's tasks: WATCH and READ-NOTICES. -/

namespace Sys2Proof.Machine

open Sys2Proof

/-- The lines of port `p`'s watch set that are latched in the latch view, in ascending order (R154). -/
def State.watchedLatched (s : State) (p : Port) : List Line :=
  (List.finRange 24).filter fun l => tget (tget s.notice.watch p) l && tget s.notice.latchView l

/-- WATCH at its block (R152). The detail is the number of lines of the new set that are latched. -/
def State.taskWatch (s : State) (p : Port) (args : List Byte) : TaskEnd :=
  let t := s.withNotice { s.notice with watch := tset s.notice.watch p (tmake fun l => lineMapHas args l) }
  t.finish (t.watchedLatched p).length

/-- WATCH (R152, R153): three argument bytes; served under FREEZE. -/
def execWatch (p : Port) (args : List Byte) (s : State) : Host.Outcome State Fault Refusal :=
  .next (s.writeTask p 0x60 args (args.length == 3) false fun t => t.taskWatch p args)

/-- The lines that have an entry in port `p`'s event table, in ascending order (R154). -/
def State.eventLines (s : State) (p : Port) : List Line :=
  (List.finRange 24).filter fun l => (tget (tget s.notice.events p) l).any

/-- A set of kinds as a byte: bit 0 HANDED, bit 1 TAKEN, bit 2 DROPPED, bit 3 TALK-ENDED (R188). -/
def EventSet.code (e : EventSet) : Nat :=
  e.handed.toNat + 2 * e.taken.toNat + 4 * e.dropped.toNat + 8 * e.talkEnded.toNat

/-- The output of READ-NOTICES: header, event entries, attention entries (R154, R188). -/
def State.noticesOutput (s : State) (p : Port) : List Byte :=
  beBytes 1 (s.eventLines p).length ++ beBytes 1 (s.watchedLatched p).length ++ beBytes 1 (s.referenceChange p).toNat
    ++ (s.eventLines p).flatMap (fun l => beBytes 1 (l.val + 1) ++ beBytes 1 (tget (tget s.notice.events p) l).code)
    ++ (s.watchedLatched p).flatMap fun l => beBytes 1 (l.val + 1)

/-- READ-NOTICES at its block: the reading and the emptying of the event table as one action (R154). -/
def State.taskReadNotices (s : State) (p : Port) : TaskEnd :=
  (s.withNotice { s.notice with events := tset s.notice.events p (tall EventSet.empty) }).finishWith
    (s.eventLines p).length (s.noticesOutput p)

/-- READ_NOTICES (R154, R155): no argument; served under FREEZE. -/
def execReadNotices (p : Port) (args : List Byte) (s : State) : Host.Outcome State Fault Refusal :=
  .next (s.writeTask p 0x61 args (args.length == 0) false fun t => t.taskReadNotices p)

end Sys2Proof.Machine
end

