-- ==== Sys2Proof/Machine/Ports.lean ====
section
/-! DEFINITION. The Control Ports: unknown tasks, READ-RESULT, READ-STATUS, ABORT, the resets and the FREEZE input. -/

namespace Sys2Proof.Machine

open Sys2Proof

/-- UNKNOWN_TASK (R179): REFUSED UnknownTask, with the received code kept in the slot. -/
def execUnknownTask (p : Port) (code : Byte) (args : List Byte) (s : State) : Host.Outcome State Fault Refusal :=
  .next (s.writeTask p code args true false fun t => t.refuse .unknownTask 0)

/-- The result record of a slot (R181, R187): state, task code, status, reason, detail, output length, output. -/
def Slot.recordBytes : Slot → List Byte
  | .empty => beBytes 1 0 ++ [0] ++ beBytes 1 0 ++ beBytes 1 0 ++ beBytes 2 0 ++ beBytes 1 0
  | .working code _ => beBytes 1 1 ++ [code] ++ beBytes 1 0 ++ beBytes 1 0 ++ beBytes 2 0 ++ beBytes 1 0
  | .done code _ r =>
    beBytes 1 2 ++ [code] ++ beBytes 1 r.status.code ++ beBytes 1 r.reason.code ++ beBytes 2 r.detail
      ++ beBytes 1 r.output.length ++ r.output

/-- Clears the unread mark of port `p` and tells the Notice Unit (R178, R181). -/
def State.markRead (s : State) (p : Port) : State :=
  let s := s.modPort p fun x => { x with unread := false }
  s.withNotice { s.notice with unreadView := tset s.notice.unreadView p false }

/-- READ_RESULT (R181): the unread mark is cleared, and the status byte and the result record are returned; no transaction is
taken while the port's reset line is held (R184). -/
def execReadResult (p : Port) (s : State) : Host.Outcome State Fault Refusal :=
  .next (if (s.port p).held then s else (s.markRead p).respond p (s.port p).slot.recordBytes)

/-- READ_STATUS (R176, R177): only the status byte is returned; a command byte of any other value is taken so too. -/
def execReadStatus (p : Port) (_cmd : Byte) (s : State) : Host.Outcome State Fault Refusal :=
  .next (if (s.port p).held then s else s.respond p [])

/-- The line whose waiter set port `p` is in: at most one (R78). -/
def State.waitLine (s : State) (p : Port) : Option Line :=
  (List.finRange 24).find? fun l => (tget (s.line l).waiters p).isSome

/-- The waiting task of port `p` ends Aborted: a waiting capture is removed, with the buffer's holder in the detail (R162); a
claim wait is removed, with the line's owner in the detail (R82). -/
def State.abortTask (s : State) (p : Port) (code : Byte) : State :=
  if code = 0x68 then
    (s.withMeter { s.meter with waiting := tset s.meter.waiting p false }).deliver p
      (Result.plain .ended .aborted (portDetail s.snapHolder))
  else
    match s.waitLine p with
    | some l => s.endWait l p .aborted
    | none => s.deliver p (Result.plain .ended .aborted 255)

/-- ABORT (R182): ends a WORKING task with response byte 1; no effect and response byte 0 on an EMPTY or DONE slot. -/
def execAbort (p : Port) (s : State) : Host.Outcome State Fault Refusal :=
  .next (if (s.port p).held then s
    else
      match (s.port p).slot with
      | .working code _ => (s.abortTask p code).respond p [1]
      | _ => s.respond p [0])

/-! ## Resets -/

/-- POWER_ON_RESET (R185): every block at its power-on values. The levels of the FREEZE input and of the port reset lines stand
as they are (R183, log 1, log 2), as do the queue and the free-value counter. -/
def execPowerOnReset (s : State) : Host.Outcome State Fault Refusal :=
  .next (((State.reset.withPorts
    { port := tmake fun p => { CtrlPort.reset with held := (s.port p).held }
      freeze := s.ports.freeze }).withFree s.free).withPending s.pending)

/-- Withdraws port `p` from every waiter set, without a result (R83). -/
def State.withdrawWaits (s : State) (p : Port) : State :=
  s.mapLines fun _ r => { r with waiters := tset r.waiters p none }

/-- Clears every talk slot held by port `p`, with the writes of R100 and without TALK-ENDED (R105). -/
def State.clearTalksOf (s : State) (p : Port) : State :=
  s.clearTalks fun l => (s.line l).talk.any fun t => t.talker == p

/-- The port reset's effect in the Meter Unit: the waiting capture withdrawn, a buffer held by `p` emptied and unlocked
(R162). -/
def State.resetMeter (s : State) (p : Port) : State :=
  s.withMeter { s.meter with
    waiting := tset s.meter.waiting p false
    buffer := if s.snapHolder = some p then none else s.meter.buffer }

/-- The port reset's effect in the Notice Unit: watch set and event table emptied, no unread result (R151). -/
def State.resetNotices (s : State) (p : Port) : State :=
  s.withNotice { s.notice with
    watch := tset s.notice.watch p (tall false)
    events := tset s.notice.events p (tall EventSet.empty)
    unreadView := tset s.notice.unreadView p false }

/-- The port reset's effect on a load in progress: it ends Abandoned (R127). -/
def State.abandonLoad (s : State) (p : Port) : State :=
  if (s.loader p).loading then s.setLoader p ((s.loader p).ended .abandoned) else s

/-- PORT_RESET: the assertion of the port's reset line, each block's part of R184. The line is held from then on, and what was
being driven is discarded. No effect where the line is held already (log 3). -/
def execPortReset (p : Port) (s : State) : Host.Outcome State Fault Refusal :=
  .next (if (s.port p).held then s
    else
      let t := s.modPort p fun _ => { CtrlPort.reset with held := true }
      let t := (t.withdrawWaits p).clearTalksOf p
      let t := t.endPlayers (fun q => q == p) .portReset
      (((t.abandonLoad p).resetMeter p).resetNotices p).driveNotices)

/-- PORT_RESET_RELEASE (R184): transactions are taken again; the slot is EMPTY since the reset. -/
def execPortResetRelease (p : Port) (s : State) : Host.Outcome State Fault Refusal :=
  .next (s.modPort p fun x => { x with held := false })

/-! ## FREEZE (R183) -/

/-- The FREEZE input with this level. -/
def State.setFreeze (s : State) (v : Bool) : State := s.withPorts { s.ports with freeze := v }

/-- FREEZE_ASSERTED (R183): changing tasks are refused and changing steps held from now on. -/
def execFreezeAsserted (s : State) : Host.Outcome State Fault Refusal := .next (s.setFreeze true)

/-- FREEZE_RELEASED (R183, R139): every PAUSED player is told, and examines its held step again; where an assertion follows it in the
queue, that comes before a player is told, and leaves the players PAUSED (log 15). -/
def execFreezeReleased (s : State) : Host.Outcome State Fault Refusal :=
  .next (if s.pending.head? = some .freezeAsserted then s.setFreeze false else (s.setFreeze false).tellPaused)

end Sys2Proof.Machine
end

