-- ==== Sys2Proof/Machine/Signalling.lean ====
section
/-! DEFINITION. Line signalling: the debounce, and the events CONNECT, DISCONNECT, ATTENTION RAISED and ATTENTION DROPPED. -/

namespace Sys2Proof.Machine

open Sys2Proof

/-- Connected debounce of line `l` has reached 384 frames (R53). -/
def State.connectedDue (s : State) (l : Line) : Bool := 384 ≤ (s.line l).connCount

/-- Attention debounce of line `l` has reached 384 frames (R53). -/
def State.attentionDue (s : State) (l : Line) : Bool := 384 ≤ (s.line l).attnCount

/-- The Connect event: connected becomes yes (R55), players awaiting it are told (R135). -/
def State.takeConnect (s : State) (l : Line) : State :=
  (s.modLine l fun r => { r with connected := true, connCount := 0 }).tellAwaiting l .connected

/-- The Disconnect event: connected becomes no, DROPPED is raised for the owner (R56), players awaiting it are told (R135). -/
def State.takeDisconnect (s : State) (l : Line) : State :=
  let t := s.modLine l fun r => { r with connected := false, connCount := 0 }
  let t := match (s.line l).owner with
    | some q => t.raise q l .dropped
    | none => t
  t.tellAwaiting l .disconnected

/-- The Attention raised event: the latch is set; when it changes, players awaiting it are told (R57, R135). -/
def State.takeAttentionRaised (s : State) (l : Line) : State :=
  let t := (s.modLine l fun r => { r with attnRaised := true, attnCount := 0 }).setAttention l true
  if (s.line l).attention then t else t.tellAwaiting l .attentionLatched

/-- The Attention dropped event: the debounced attention becomes absent; the latch stays (R58). -/
def State.takeAttentionDropped (s : State) (l : Line) : State :=
  s.modLine l fun r => { r with attnRaised := false, attnCount := 0 }

/-- CONNECT (R55): no effect where the change is not due (log 3). -/
def execConnect (l : Line) (s : State) : Host.Outcome State Fault Refusal :=
  .next (if s.connectedDue l && !(s.line l).connected then (s.takeConnect l).driveNotices else s)

/-- DISCONNECT (R56): no effect where the change is not due (log 3). -/
def execDisconnect (l : Line) (s : State) : Host.Outcome State Fault Refusal :=
  .next (if s.connectedDue l && (s.line l).connected then (s.takeDisconnect l).driveNotices else s)

/-- ATTENTION_RAISED (R57): no effect where the change is not due (log 3). -/
def execAttentionRaised (l : Line) (s : State) : Host.Outcome State Fault Refusal :=
  .next (if s.attentionDue l && !(s.line l).attnRaised then (s.takeAttentionRaised l).driveNotices else s)

/-- ATTENTION_DROPPED (R58): no effect where the change is not due (log 3). -/
def execAttentionDropped (l : Line) (s : State) : Host.Outcome State Fault Refusal :=
  .next (if s.attentionDue l && (s.line l).attnRaised then (s.takeAttentionDropped l).driveNotices else s)

/-- The debounced changes of line `l` that are due and have not been taken (log 4). -/
def State.takeDueSignals (s : State) (l : Line) : State :=
  let t := if s.connectedDue l then (if (s.line l).connected then s.takeDisconnect l else s.takeConnect l) else s
  if t.attentionDue l then (if (t.line l).attnRaised then t.takeAttentionDropped l else t.takeAttentionRaised l) else t

/-- The stable-frame count of a condition after one frame (R52). -/
def debounce (debounced raw : Bool) (count : Nat) : Nat := if raw = debounced then 0 else count + 1

/-- Steps the debounce of both conditions of every line (R52). -/
def State.stepDebounce (s : State) (rx : LineFrame) : State :=
  s.mapLines fun l r =>
    { r with
      connCount := debounce r.connected (rawConnected rx l) r.connCount
      attnCount := debounce r.attnRaised (rawAttention rx l) r.attnCount }

/-- SIGNALLING_WORD (R7, R52): while frames are produced, changes and LNK periods still due are taken (log 4), then every debounce
is stepped, and the link A0 word's marker is timed for the LNK period it ends (R165, R190). No words arrive before frames begin
(R54). -/
def execSignallingWord (rx : LineFrame) (s : State) : Host.Outcome State Fault Refusal :=
  .next (if s.clock.running then
      let t := (((List.finRange 24).foldl State.takeDueSignals s).takeMarkerDue).stepDebounce rx
      (t.withClock (t.clock.timeMarker (frameMarker rx))).driveNotices
    else s)

end Sys2Proof.Machine
end

