-- ==== Sys2Proof/Machine/Dispatch.lean ====
section
/-! DEFINITION. The meaning of each command: one arm for each row of spec/opcode_table.json. -/

namespace Sys2Proof.Machine

open Sys2Proof

/-- The effect of a command on everything but the queue. -/
def exec (i : Instr) (s : State) : Host.Outcome State Fault Refusal :=
  match i with
  | .setCell p args => Sys2Proof.Machine.execSetCell p args s
  | .park p args => Sys2Proof.Machine.execPark p args s
  | .place p args => Sys2Proof.Machine.execPlace p args s
  | .trim p args => Sys2Proof.Machine.execTrim p args s
  | .tone p args => Sys2Proof.Machine.execTone p args s
  | .ackAttn p args => Sys2Proof.Machine.execAckAttn p args s
  | .lineStatus p args => Sys2Proof.Machine.execLineStatus p args s
  | .claim p args => Sys2Proof.Machine.execClaim p args s
  | .release p args => Sys2Proof.Machine.execRelease p args s
  | .hand p args => Sys2Proof.Machine.execHand p args s
  | .seize p args => Sys2Proof.Machine.execSeize p args s
  | .assign p args => Sys2Proof.Machine.execAssign p args s
  | .clearMatrix p args => Sys2Proof.Machine.execClearMatrix p args s
  | .talk p args => Sys2Proof.Machine.execTalk p args s
  | .untalk p args => Sys2Proof.Machine.execUntalk p args s
  | .loadBegin p args => Sys2Proof.Machine.execLoadBegin p args s
  | .loadChunk p args => Sys2Proof.Machine.execLoadChunk p args s
  | .loadEnd p args => Sys2Proof.Machine.execLoadEnd p args s
  | .run p args => Sys2Proof.Machine.execRun p args s
  | .halt p args => Sys2Proof.Machine.execHalt p args s
  | .seqStatus p args => Sys2Proof.Machine.execSeqStatus p args s
  | .watch p args => Sys2Proof.Machine.execWatch p args s
  | .readNotices p args => Sys2Proof.Machine.execReadNotices p args s
  | .snap p args => Sys2Proof.Machine.execSnap p args s
  | .readSnap p args => Sys2Proof.Machine.execReadSnap p args s
  | .refEnable p args => Sys2Proof.Machine.execRefEnable p args s
  | .refSelect p args => Sys2Proof.Machine.execRefSelect p args s
  | .clockStatus p args => Sys2Proof.Machine.execClockStatus p args s
  | .unknownTask p code args => Sys2Proof.Machine.execUnknownTask p code args s
  | .readResult p => Sys2Proof.Machine.execReadResult p s
  | .readStatus p cmd => Sys2Proof.Machine.execReadStatus p cmd s
  | .abort p => Sys2Proof.Machine.execAbort p s
  | .stepSetCell p => Sys2Proof.Machine.execStepSetCell p s
  | .stepSetTrim p => Sys2Proof.Machine.execStepSetTrim p s
  | .stepPlace p => Sys2Proof.Machine.execStepPlace p s
  | .stepTone p => Sys2Proof.Machine.execStepTone p s
  | .stepTalkOn p => Sys2Proof.Machine.execStepTalkOn p s
  | .stepTalkOff p => Sys2Proof.Machine.execStepTalkOff p s
  | .stepWait p => Sys2Proof.Machine.execStepWait p s
  | .stepAwait p => Sys2Proof.Machine.execStepAwait p s
  | .stepGroup p => Sys2Proof.Machine.execStepGroup p s
  | .stepEnd p => Sys2Proof.Machine.execStepEnd p s
  | .examineInvalidStep p => Sys2Proof.Machine.execExamineInvalidStep p s
  | .powerOnReset => Sys2Proof.Machine.execPowerOnReset s
  | .portReset p => Sys2Proof.Machine.execPortReset p s
  | .portResetRelease p => Sys2Proof.Machine.execPortResetRelease p s
  | .freezeAsserted => Sys2Proof.Machine.execFreezeAsserted s
  | .freezeReleased => Sys2Proof.Machine.execFreezeReleased s
  | .frameEvent rx => Sys2Proof.Machine.execFrameEvent rx s
  | .signallingWord rx => Sys2Proof.Machine.execSignallingWord rx s
  | .connect l => Sys2Proof.Machine.execConnect l s
  | .disconnect l => Sys2Proof.Machine.execDisconnect l s
  | .attentionRaised l => Sys2Proof.Machine.execAttentionRaised l s
  | .attentionDropped l => Sys2Proof.Machine.execAttentionDropped l s
  | .claimWaitExpiry l p => Sys2Proof.Machine.execClaimWaitExpiry l p s
  | .chunkTimerExpiry p => Sys2Proof.Machine.execChunkTimerExpiry p s
  | .waitTimerExpiry p => Sys2Proof.Machine.execWaitTimerExpiry p s
  | .awaitTimeout p => Sys2Proof.Machine.execAwaitTimeout p s
  | .snapshotExpiry => Sys2Proof.Machine.execSnapshotExpiry s
  | .referencePeriod r length => Sys2Proof.Machine.execReferencePeriod r length s
  | .missingPeriod r => Sys2Proof.Machine.execMissingPeriod r s
  | .referenceLock r => Sys2Proof.Machine.execReferenceLock r s
  | .referenceLoss r => Sys2Proof.Machine.execReferenceLoss r s
  | .examineMalformedStep p => Sys2Proof.Machine.execExamineMalformedStep p s

end Sys2Proof.Machine
end

