-- ==== Sys2Proof/Safety.lean ====
section
/-! DEFINITION. The laws that the spec states of every state of the part, as predicates on State, each meant to hold after
power-on reset and to be kept by every step; and the words in which the statements say what a command does. -/

namespace Sys2Proof.Safety

open Sys2Proof Sys2Proof.Machine

/-- The Cue Store's memory has its canonical form and lies in the four regions (R113). -/
abbrev MemoryLaw (s : State) : Prop := s.cue.mem.wf = true ∧ ∀ c ∈ s.cue.mem, c.1 < 8192

/-- A ramped coefficient lies in 0 to 65,535, target and current (R28, R32). -/
abbrev RampInRange (r : Ramp) : Prop := r.target ≤ 65535 ∧ r.current ≤ 65535

/-- The coefficient a staged action carries, 0 for a line action (R36). -/
def actionCoefficient : Action → Nat
  | .cell _ _ v => v
  | .trim _ v => v
  | .place _ _ _ => 0
  | .tone _ _ => 0

/-- Ranges of the coefficient bank (R28, R32), the trim target's definition (R30), the tone phase (R24), and the ranges of talk
slots and staged actions that keep them. -/
abbrev BankLaw (s : State) : Prop :=
  (∀ c b, RampInRange (tget (tget s.mix.cells c) b)) ∧
  (∀ l : Line, tget s.mix.storedTrim l ≤ 65535 ∧ tget s.mix.trimDuck l ≤ 32768
    ∧ (tget s.mix.trim l).target = trimTarget (tget s.mix.storedTrim l) (tget s.mix.trimDuck l)
    ∧ RampInRange (tget s.mix.trim l) ∧ RampInRange (tget s.mix.talkLevel l)) ∧
  RampInRange s.mix.parkGain ∧ s.mix.tonePhase < 48 ∧
  (∀ p, ∀ g ∈ tget s.mix.staging p, ∀ a ∈ g, actionCoefficient a.action ≤ 65535)

/-- The talk slot and the writes of R100: while a slot is held the talk level target, the trim duck and the last talk source are
the slot's; while none is, they are 0 and 32,768 (R30, R100). -/
abbrev TalkWritesLaw (s : State) : Prop :=
  ∀ l : Line,
    (∀ t ∈ (s.line l).talk, t.gain ≤ 65535 ∧ t.duck ≤ 32768 ∧ (tget s.mix.talkLevel l).target = t.gain
      ∧ tget s.mix.trimDuck l = t.duck ∧ tget s.mix.lastTalk l = t.source) ∧
    ((s.line l).talk = none → (tget s.mix.talkLevel l).target = 0 ∧ tget s.mix.trimDuck l = 32768)

/-- The line record law of R49, R78 and R99 for line `l`. -/
abbrev LineLaw (s : State) (l : Line) : Prop :=
  ((s.line l).status = .free ↔ (s.line l).owner = none) ∧
  ((s.line l).status = .placed ↔ (s.line l).bus.isSome) ∧
  (∀ b ∈ (s.line l).bus, (s.line l).owner = some (s.busOwner b)) ∧
  ((s.line l).status = .free → (s.line l).hold = none ∧ (s.line l).tone = false ∧ (s.line l).talk = none
    ∧ ∀ q, tget (s.line l).waiters q = none) ∧
  (∀ q ∈ (s.line l).owner, tget (s.line l).waiters q = none) ∧
  (∀ t ∈ (s.line l).talk, t.talker = 0 ∨ (s.line l).owner = some t.talker)

/-- Ownership of lines, buses, cells and pending groups: every line record obeys LineLaw, a line's cell has a non-zero target
only on a bus its owner owns (R35), and a pending group names only what its port owns (R39, R40). -/
abbrev OwnershipLaw (s : State) : Prop :=
  (∀ l, LineLaw s l) ∧
  (∀ (l : Line) b, (tget (tget s.mix.cells (Line.contributor l)) b).target ≠ 0 → (s.line l).owner = some (s.busOwner b)) ∧
  (∀ p, ∀ g ∈ tget s.mix.staging p, ∀ a ∈ g, s.actionDenied p a.action = none)

/-- The debounce counts never pass 384 (R52, R53). -/
abbrev DebounceLaw (s : State) : Prop := ∀ l, (s.line l).connCount ≤ 384 ∧ (s.line l).attnCount ≤ 384

/-- Whether a slot holds a completed result. -/
def isDone : Slot → Bool
  | .done _ _ _ => true
  | _ => false

/-- The task code of a slot in progress. -/
def workingCode : Slot → Option Byte
  | .working c _ => some c
  | _ => none

/-- Slots and waits agree (R178, R180): a mark is unread only on a DONE slot; a slot is WORKING exactly while its port waits on a
line with a CLAIM or for a capture with a SNAP; a port waits on at most one line (R78); a held port is empty and silent
(R184). -/
abbrev SlotLaw (s : State) : Prop :=
  (∀ p, (s.port p).unread = true → isDone (s.port p).slot = true) ∧
  (∀ p, ∀ c ∈ workingCode (s.port p).slot, c = 0x30 ∧ (∃ l, (tget (s.line l).waiters p).isSome = true)
    ∨ c = 0x68 ∧ tget s.meter.waiting p = true) ∧
  (∀ p l, (tget (s.line l).waiters p).isSome = true → workingCode (s.port p).slot = some 0x30) ∧
  (∀ p l k, (tget (s.line l).waiters p).isSome = true → (tget (s.line k).waiters p).isSome = true → l = k) ∧
  (∀ p, tget s.meter.waiting p = true → workingCode (s.port p).slot = some 0x68) ∧
  (∀ p, (s.port p).held = true →
    (s.port p).slot = .empty ∧ (s.port p).unread = false ∧ (s.port p).writeNotTaken = false ∧ (s.port p).response = [])

/-- The Notice Unit's views never differ from what they follow (R146, R149), and every notice line is asserted exactly while one
of its conditions holds (R149). -/
abbrev NoticeLaw (s : State) : Prop :=
  (∀ l, tget s.notice.latchView l = (s.line l).attention) ∧
  (∀ p, tget s.notice.unreadView p = (s.port p).unread) ∧
  (∀ p, tget s.notice.line p = s.noticeLevel p)

/-- Ranges of a reference record (R166), with the model's open interval and due mark (log 8, log 4). -/
abbrev RefLaw (r : RefId) (x : RefRec) : Prop :=
  (x.state = .off → x.count = 0 ∧ x.armed = false ∧ x.reached = false) ∧
  (x.state = .acquiring → x.count < lockThreshold r ∧ (x.reached = true → x.count + 1 = lockThreshold r)) ∧
  (x.state = .locked → x.count < 8 ∧ (x.reached = true → x.count = 7))

/-- The Frame Clock Unit: records in range; INT never OFF, LOCKED exactly once frames run, and then without a faulty period, since
its periods are always sound (R166, R167); the selected reference never OFF (R166); the generator FOLLOWING only while the selected
reference is LOCKED, and then running (R169); a rate once running. The clauses on `armed` rest on log 8, those on `reached` on log 4,
those on `pull` on log 10, those on LNK's markers on log 9. -/
abbrev ClockLaw (s : State) : Prop :=
  (∀ r, RefLaw r (s.ref r)) ∧ (s.ref RefId.int).state ≠ .off ∧
  ((s.ref RefId.int).state = .locked ↔ s.clock.running = true) ∧
  ((s.ref RefId.int).state = .locked → (s.ref RefId.int).count = 0 ∧ (s.ref RefId.int).reached = false) ∧
  (s.ref s.clock.selected).state ≠ .off ∧
  (s.clock.generator = .following ↔ (s.ref s.clock.selected).state = .locked ∧ s.clock.running = true) ∧
  (s.clock.running = true ↔ s.clock.rate.isSome) ∧
  (s.clock.marker.isSome → s.clock.sinceMarker.isSome) ∧
  ((s.ref RefId.lnk).armed = true → s.clock.missed = 0 ∧ s.clock.sinceMarker.isSome) ∧
  s.clock.pull ≤ 4800 ∧ (0 < s.clock.pull → s.clock.generator = .following)

/-- Loaders and Cue Players: the bounds of R117, the chunk timer present exactly while LOADING, the range of a load in progress
invalid (R116), the player IDLE while its loader is LOADING (R118); step addresses within 0 to 255 (R128); a player PENDING
exactly while its group is staged (R36), with the step after the group within the region; PAUSED only under FREEZE, or where its
assertion follows a release before the player is told (R139, R183, log 15), before a valid step that FREEZE holds, and never at 255
(R131). -/
abbrev SequenceLaw (s : State) : Prop :=
  (∀ p, (s.loader p).offset + (s.loader p).declared ≤ 256 ∧ (s.loader p).received ≤ (s.loader p).declared
    ∧ (s.loader p).offset ≤ 255 ∧ 4800 ≤ (s.loader p).timeout ∧ (s.loader p).timeout ≤ 480000
    ∧ ((s.loader p).loading = true ↔ (s.loader p).timer.isSome)
    ∧ ((s.loader p).loading = true → (s.player p).state = .idle)
    ∧ ((s.loader p).loading = true → ∀ a : Fin 256, (s.loader p).offset ≤ a.val →
        a.val < (s.loader p).offset + (s.loader p).declared → tget (tget s.cue.valid p) a = false)) ∧
  (∀ p, (s.player p).addr ≤ 255 ∧ (s.player p).endAddr ≤ 255
    ∧ ((s.player p).state = .pending ↔ (tget s.mix.staging p).isSome)
    ∧ ((s.player p).state = .idle → (s.player p).endReason ≠ .none → (s.player p).addr = (s.player p).endAddr)
    ∧ ((s.player p).state = .paused → (s.ports.freeze = true ∨ s.pending.head? = some .freezeAsserted)
      ∧ (s.player p).addr ≠ 255 ∧ s.recordValid p (s.player p).addr = true
      ∧ ∃ b ∈ decodeStep (s.record p (s.player p).addr), b.heldByFreeze = true)
    ∧ (∀ g ∈ tget s.mix.staging p, 1 ≤ g.length ∧ g.length ≤ 16 ∧ (s.player p).addr + g.length < 255))

/-- Every transmitted sample lies in the sample range (R26), and the meters in theirs (R156, R158). -/
abbrev OutputLaw (s : State) : Prop :=
  (∀ i, -8388608 ≤ tget s.mix.out i ∧ tget s.mix.out i ≤ 8388607) ∧
  (∀ i, (tget s.meter.live i).peak ≤ 8388608 ∧ (tget s.meter.live i).clips ≤ 65535) ∧
  (∀ b ∈ s.meter.buffer, b.timer ≤ 48000 ∧ ∀ i, (tget b.entries i).peak ≤ 8388608 ∧ (tget b.entries i).clips ≤ 65535)

/-! ## Words of the statements: bytes -/

/-- The byte that carries the number of a line, source, bus or contributor: numbers run from 1 (R1). -/
def num {n : Nat} (i : Fin n) : Byte := BitVec.ofNat 8 (i.val + 1)

/-- The byte that carries a port or reference number: numbers run from 0 (R1, R165). -/
def num0 {n : Nat} (i : Fin n) : Byte := BitVec.ofNat 8 i.val

/-- A two-byte value, most significant byte first (R186). -/
def wide (hi lo : Byte) : Nat := hi.toNat * 256 + lo.toNat

/-- A value as one byte. -/
def one (n : Nat) : List Byte := [BitVec.ofNat 8 n]

/-- A value as two bytes, most significant first (R186). -/
def two (n : Nat) : List Byte := [BitVec.ofNat 8 (n / 256), BitVec.ofNat 8 n]

/-- A value as three bytes, most significant first (R186). -/
def three (n : Nat) : List Byte := [BitVec.ofNat 8 (n / 65536), BitVec.ofNat 8 (n / 256), BitVec.ofNat 8 n]

/-- The bus argument of a placement: 0 means hold (R63). -/
def busByte : Option Bus → Byte
  | none => 0
  | some b => num b

/-- The hold source argument of a placement: 0 means absent (R63). -/
def holdByte : Option Source → Byte
  | none => 0
  | some x => num x

/-- A yes-or-no field as a byte. -/
def flagByte (v : Bool) : Byte := if v then 1 else 0

/-! ## Words of the statements: ends of a task -/

/-- The result of a task: status, reason, detail and no output. -/
def ends (st : Status) (why : Reason) (detail : Nat) : Result := ⟨st, why, detail, []⟩

/-- Port `p` takes a WRITE-TASK: its reset line is released (R184) and its slot is not WORKING (R178). -/
abbrev Ready (s : State) (p : Port) : Prop := (s.port p).held = false ∧ (s.port p).slot.isWorking = false

/-- Each notice line is asserted exactly while one of its conditions holds (R149). -/
abbrev NoticeLinesFollow (t : State) : Prop := ∀ q, tget t.notice.line q = t.noticeLevel q

/-- What no command but FREEZE's own, power-on reset and the queue change: the FREEZE level, the free-value counter, the queue. -/
abbrev Aside (s t : State) : Prop := t.ports.freeze = s.ports.freeze ∧ t.free = s.free ∧ t.pending = s.pending

/-- Port `p` after a completed WRITE-TASK: DONE with this result unread, write-not-taken clear, answered with the status byte
alone (R176 to R178, R180). -/
abbrev Answered (t : State) (p : Port) (code : Byte) (args : List Byte) (r : Result) : Prop :=
  t.port p = ⟨.done code args r, true, false, false, [t.statusByte p]⟩

/-- The Notice Unit is told that port `p`'s slot has (`v`) or has not an unread result, and no other port's (R149). -/
abbrev UnreadTold (s t : State) (p : Port) (v : Bool) : Prop :=
  tget t.notice.unreadView p = v ∧ ∀ q, q ≠ p → tget t.notice.unreadView q = tget s.notice.unreadView q

/-- A port whose waiting task is completed by a block (R178, R180); a port that has none is as before. -/
def delivered (x : CtrlPort) (r : Result) : CtrlPort :=
  match x.slot with
  | .working code args => { x with slot := .done code args r, unread := true }
  | _ => x

/-- The Control Ports and the notice lines after a task that port `p` wrote and that completed with this result: `told` gives the
result that a waiting task of another port is completed with, if any (R178, R180). -/
abbrev PortsAfter (s t : State) (p : Port) (code : Byte) (args : List Byte) (r : Result) (told : Port → Option Result) : Prop :=
  Answered t p code args r ∧
  (∀ q, q ≠ p → t.port q = match told q with
    | some x => delivered (s.port q) x
    | none => s.port q) ∧
  tget t.notice.unreadView p = true ∧
  (∀ q, q ≠ p → tget t.notice.unreadView q =
    if (told q).isSome ∧ (s.port q).slot.isWorking then true else tget s.notice.unreadView q) ∧
  Aside s t ∧ NoticeLinesFollow t

/-- The same where the task completes no other port's task. -/
abbrev TaskTaken (s t : State) (p : Port) (code : Byte) (args : List Byte) (r : Result) : Prop :=
  PortsAfter s t p code args r fun _ => none

/-- The same where the task also raises no event and changes no latch, watch set or flag. -/
abbrev TaskDone (s t : State) (p : Port) (code : Byte) (args : List Byte) (r : Result) : Prop :=
  TaskTaken s t p code args r ∧
  t.notice = { s.notice with unreadView := t.notice.unreadView, line := t.notice.line }

/-- Port `p` after a WRITE-TASK whose task goes on: WORKING with the unread mark clear (R178, R180). -/
abbrev TaskGoesOn (s t : State) (p : Port) (code : Byte) (args : List Byte) : Prop :=
  t.port p = ⟨.working code args, false, false, false, [t.statusByte p]⟩ ∧ (∀ q, q ≠ p → t.port q = s.port q) ∧
  UnreadTold s t p false ∧ Aside s t ∧
  t.notice = { s.notice with unreadView := t.notice.unreadView, line := t.notice.line } ∧ NoticeLinesFollow t

/-- The six blocks between the ports and the notices are as before. -/
abbrev BlocksKept (s t : State) : Prop :=
  t.lineTable = s.lineTable ∧ t.mix = s.mix ∧ t.cue = s.cue ∧ t.players = s.players ∧ t.meter = s.meter ∧ t.clock = s.clock

/-- A refused task: REFUSED with this reason and detail, and the part's state as before apart from the result in the slot. -/
abbrev Refused (s t : State) (p : Port) (code : Byte) (args : List Byte) (why : Reason) (detail : Nat) : Prop :=
  TaskDone s t p code args (ends .refused why detail) ∧ BlocksKept s t

/-- A checked list of refusals, as a task page gives it: the first that applies. -/
def firstCheck : List (Bool × Reason × Nat) → Option (Reason × Nat)
  | [] => none
  | (applies, why, detail) :: rest => if applies then some (why, detail) else firstCheck rest

/-- Where a check of the list applies to command `c`, a task of port `p`, it is refused by the first that does. -/
abbrev RefusedByFirst (c : Instr) (s : State) (p : Port) (code : Byte) (args : List Byte) (checks : List (Bool × Reason × Nat)) :
    Prop :=
  ∀ x ∈ firstCheck checks, ∃ t, exec c s = .next t ∧ Refused s t p code args x.1 x.2

/-- A field of the argument bytes lies within these bounds. -/
def inRange (lo hi n : Nat) : Bool := lo ≤ n && n ≤ hi

/-- The owner of line number `n`; none for a FREE line. -/
def ownerOfLine (s : State) (n : Nat) : Option Port := (lineArg n).bind fun l => (s.line l).owner

/-- The owner of bus number `n`. -/
def ownerOfBus (s : State) (n : Nat) : Option Port := (busArg n).map fun b => s.busOwner b

/-- The holder of the talk slot of line number `n`; none for an absent slot. -/
def talkerOfLine (s : State) (n : Nat) : Option Port := (lineArg n).bind fun l => (s.line l).talk.map TalkSlot.talker

/-- A WRITE-TASK row: its port, task code and argument bytes, whether the length is the one R186 gives, and whether the task is a
changing task (R179). -/
structure TaskRow where
  port : Port
  code : Byte
  args : List Byte
  lengthOk : Bool
  changing : Bool
  deriving DecidableEq, Repr

/-- The rows of R186 with the changing tasks of R179; none for a command that is no task the part knows. -/
def taskRow : Instr → Option TaskRow
  | .setCell p a => some ⟨p, 0x10, a, a.length == 4, true⟩
  | .park p a => some ⟨p, 0x11, a, a.length == 3, true⟩
  | .place p a => some ⟨p, 0x20, a, a.length == 3, true⟩
  | .trim p a => some ⟨p, 0x21, a, a.length == 3, true⟩
  | .tone p a => some ⟨p, 0x22, a, a.length == 2, true⟩
  | .ackAttn p a => some ⟨p, 0x23, a, a.length == 1, false⟩
  | .lineStatus p a => some ⟨p, 0x24, a, a.length == 1, false⟩
  | .claim p a => some ⟨p, 0x30, a, a.length == 3, true⟩
  | .release p a => some ⟨p, 0x31, a, a.length == 1, true⟩
  | .hand p a => some ⟨p, 0x32, a, a.length == 2, true⟩
  | .seize p a => some ⟨p, 0x33, a, a.length == 1, true⟩
  | .assign p a => some ⟨p, 0x34, a, a.length == 2, true⟩
  | .clearMatrix p a => some ⟨p, 0x35, a, a.length == 0, true⟩
  | .talk p a => some ⟨p, 0x40, a, a.length == 6, false⟩
  | .untalk p a => some ⟨p, 0x41, a, a.length == 1, false⟩
  | .loadBegin p a => some ⟨p, 0x50, a, a.length == 5, false⟩
  | .loadChunk p a => some ⟨p, 0x51, a, 8 ≤ a.length && a.length ≤ 64 && a.length % 8 == 0, false⟩
  | .loadEnd p a => some ⟨p, 0x52, a, a.length == 0, false⟩
  | .run p a => some ⟨p, 0x58, a, a.length == 2, false⟩
  | .halt p a => some ⟨p, 0x59, a, a.length == 0, false⟩
  | .seqStatus p a => some ⟨p, 0x5A, a, a.length == 0, false⟩
  | .watch p a => some ⟨p, 0x60, a, a.length == 3, false⟩
  | .readNotices p a => some ⟨p, 0x61, a, a.length == 0, false⟩
  | .snap p a => some ⟨p, 0x68, a, a.length == 0, false⟩
  | .readSnap p a => some ⟨p, 0x69, a, a.length == 3, false⟩
  | .refEnable p a => some ⟨p, 0x70, a, a.length == 2, false⟩
  | .refSelect p a => some ⟨p, 0x71, a, a.length == 1, false⟩
  | .clockStatus p a => some ⟨p, 0x72, a, a.length == 0, false⟩
  | _ => none

/-- The port of a WRITE-TASK, of a known task or an unknown one (R176, R179). -/
def writePort : Instr → Option Port
  | .unknownTask p _ _ => some p
  | c => (taskRow c).map TaskRow.port

/-- The port of a link transaction, of any command (R176). -/
def transactionPort (c : Instr) : Option Port := (encodeLink c).map Prod.fst

/-- The result record of READ-RESULT (R181, R187). -/
def recordOf : Slot → List Byte
  | .empty => [0, 0, 0, 0, 0, 0, 0]
  | .working code _ => [1, code, 0, 0, 0, 0, 0]
  | .done code _ r => [2, code] ++ one r.status.code ++ one r.reason.code ++ two r.detail ++ one r.output.length ++ r.output

/-! ## Words of the statements: the blocks -/

/-- The bank's ramped coefficient with another target; the current value is not written (R29). -/
def aimed (r : Ramp) (v : Nat) : Ramp := { r with target := v }

/-- The coefficient one ramp step on: at most 128 toward the target, never past it (R32). -/
def stepped (current target : Nat) : Nat :=
  if current ≤ target then min (current + 128) target else max (current - 128) target

/-- Only the record of line `l` may differ in the Line Table. -/
abbrev OnlyLine (s t : State) (l : Line) : Prop :=
  t.lineTable = { s.lineTable with lines := t.lineTable.lines } ∧ ∀ k, k ≠ l → t.line k = s.line k

/-- The event kinds of every port and line are as before, but for these that are added (R147). -/
abbrev EventsAdded (s t : State) (added : Port → Line → EventKind → Bool) : Prop :=
  ∀ q l k, (tget (tget t.notice.events q) l).has k = ((tget (tget s.notice.events q) l).has k || added q l k)

/-- The talk-slot holder of a line that is told of the slot's end, unless it made the change itself (R77, R104). -/
def talkEndedTo (s : State) (l : Line) (actor : Port) : Option Port :=
  match (s.line l).talk with
  | some x => if x.talker = actor then none else some x.talker
  | none => none

/-- The player of port `q` has ended: IDLE at this address, with this end record (R129). -/
def endedPlayer (why : EndReason) (a : Nat) : Player := ⟨.idle, a, why, a⟩

/-- Every pending group that names what is named is gone unapplied and its player ended LostLine at its GROUP step; the others
are as before (R40, R138). -/
abbrev GroupsLost (s t : State) (named : Action → Bool) : Prop :=
  ∀ q, tget t.mix.staging q = (if s.groupNames named q then none else tget s.mix.staging q) ∧
    t.player q = (if s.groupNames named q then endedPlayer (.fault .lostLine) (s.player q).addr else s.player q)

/-- The clean-up of R75 on line `l`, with the new owner, or none: the record's fields, the waiters as R80, R89 and R96 leave them,
and the targets of the bank. The latch is the caller's. -/
abbrev CleanedUp (s t : State) (l : Line) (new : Option Port) : Prop :=
  t.line l = { s.line l with
    attention := (t.line l).attention, status := if new = none then .free else .held, owner := new, bus := none,
    hold := none, tone := false, talk := none, waiters := (t.line l).waiters } ∧
  (∀ q, tget (t.line l).waiters q = if new = none ∨ new = some q then none else tget (s.line l).waiters q) ∧
  OnlyLine s t l ∧
  t.mix = { s.mix with
    cells := t.mix.cells, storedTrim := t.mix.storedTrim, trimDuck := t.mix.trimDuck, trim := t.mix.trim,
    talkLevel := t.mix.talkLevel, staging := t.mix.staging } ∧
  (∀ c b, tget (tget t.mix.cells c) b =
    if c = Line.contributor l then aimed (tget (tget s.mix.cells c) b) 0 else tget (tget s.mix.cells c) b) ∧
  (∀ k, tget t.mix.storedTrim k = (if k = l then 32768 else tget s.mix.storedTrim k) ∧
    tget t.mix.trimDuck k = (if k = l then 32768 else tget s.mix.trimDuck k) ∧
    tget t.mix.trim k = (if k = l then aimed (tget s.mix.trim k) 32768 else tget s.mix.trim k) ∧
    tget t.mix.talkLevel k = (if k = l then aimed (tget s.mix.talkLevel k) 0 else tget s.mix.talkLevel k)) ∧
  GroupsLost s t (Action.namesLine l)

/-- The writes of R100 and R30 for line `l` with these values, and nothing else in the bank; `source` is written where given. -/
abbrev TalkWritten (s t : State) (l : Line) (gain duck : Nat) (source : Option Source) : Prop :=
  t.mix = { s.mix with
    trimDuck := t.mix.trimDuck, trim := t.mix.trim, talkLevel := t.mix.talkLevel, lastTalk := t.mix.lastTalk } ∧
  ∀ k, tget t.mix.trimDuck k = (if k = l then duck else tget s.mix.trimDuck k) ∧
    tget t.mix.trim k = (if k = l then aimed (tget s.mix.trim k) (tget s.mix.storedTrim k * duck / 32768)
      else tget s.mix.trim k) ∧
    tget t.mix.talkLevel k = (if k = l then aimed (tget s.mix.talkLevel k) gain else tget s.mix.talkLevel k) ∧
    tget t.mix.lastTalk k = (if k = l then source.getD (tget s.mix.lastTalk k) else tget s.mix.lastTalk k)

/-- One cell has a new target and the rest of the bank is as before (R29, R42). -/
abbrev CellWritten (s t : State) (c : Contributor) (b : Bus) (v : Nat) : Prop :=
  t.mix = { s.mix with cells := t.mix.cells } ∧
  ∀ c' b', tget (tget t.mix.cells c') b' =
    if c' = c ∧ b' = b then aimed (tget (tget s.mix.cells c') b') v else tget (tget s.mix.cells c') b'

/-- One line has a new stored trim, its trim target follows (R30), and the rest of the bank is as before (R65). -/
abbrev TrimWritten (s t : State) (l : Line) (v : Nat) : Prop :=
  t.mix = { s.mix with storedTrim := t.mix.storedTrim, trim := t.mix.trim } ∧
  ∀ k, tget t.mix.storedTrim k = (if k = l then v else tget s.mix.storedTrim k) ∧
    tget t.mix.trim k = (if k = l then aimed (tget s.mix.trim k) (v * tget s.mix.trimDuck k / 32768) else tget s.mix.trim k)

/-- The placement table of R63 on line `l`, and no other change of the Line Table. -/
abbrev LinePlaced (s t : State) (l : Line) (bus : Option Bus) (hold : Option Source) : Prop :=
  OnlyLine s t l ∧
  t.line l = { s.line l with
    status := if bus = none then .held else .placed
    bus := bus
    hold := if bus = none ∨ hold ≠ none then hold else (s.line l).hold }

/-- The tone field of line `l` and nothing else of the Line Table (R67). -/
abbrev ToneSet (s t : State) (l : Line) (on : Bool) : Prop :=
  OnlyLine s t l ∧ t.line l = { s.line l with tone := on }

/-- Only the player of port `p` may differ among the players. -/
abbrev OtherPlayersKept (s t : State) (p : Port) : Prop := ∀ q, q ≠ p → t.player q = s.player q

/-- Only the group of player `p` may differ in the Mix Engine, and it is gone: the player's discard (R41). -/
abbrev GroupDiscarded (s t : State) (p : Port) : Prop :=
  t.mix = { s.mix with staging := t.mix.staging } ∧ tget t.mix.staging p = none ∧
  ∀ q, q ≠ p → tget t.mix.staging q = tget s.mix.staging q

/-- The player of port `p`, STEPPING, examines a valid record of these 8 bytes (R130, R131, R189). -/
abbrev Examines (s : State) (p : Port) (record : List Byte) : Prop :=
  (s.player p).state = .stepping ∧ s.recordValid p (s.player p).addr = true ∧ s.record p (s.player p).addr = record

/-- The parts no cue step touches: cue store, meters, clock, ports, counter and queue. -/
abbrev StepAside (s t : State) : Prop :=
  t.cue = s.cue ∧ t.meter = s.meter ∧ t.clock = s.clock ∧ t.ports = s.ports ∧ t.free = s.free ∧ t.pending = s.pending

/-- In the Notice Unit only the levels of the notice lines may differ, and they follow their conditions (R149). -/
abbrev NoticeDriven (s t : State) : Prop := t.notice = { s.notice with line := t.notice.line } ∧ NoticeLinesFollow t

/-- The player of port `p` ended with this fault at this address; nothing else of the part changed (R129, R131). -/
abbrev Faulted (s t : State) (p : Port) (k : PlayerFault) (a : Nat) : Prop :=
  t.player p = endedPlayer (.fault k) a ∧ OtherPlayersKept s t p ∧ t.lineTable = s.lineTable ∧ GroupDiscarded s t p ∧
  StepAside s t

/-- The player of port `p` stands at the next step, STEPPING; the other players as before (R131). -/
abbrev WentOn (s t : State) (p : Port) : Prop :=
  t.player p = { s.player p with state := .stepping, addr := (s.player p).addr + 1 } ∧ OtherPlayersKept s t p

/-- Every PAUSED player is STEPPING at the same address, the others are as before (R139). -/
abbrev PausedTold (s t : State) : Prop :=
  ∀ p, t.player p = if (s.player p).state = .paused then { s.player p with state := .stepping } else s.player p

/-- The player past its WAIT or AWAIT step: on to the next, or ended with End at 255 (R134 to R136). -/
def pastWait (x : Player) : Player :=
  if 255 ≤ x.addr then endedPlayer .ended x.addr else { x with state := .stepping, addr := x.addr + 1 }

/-- The effect of a staged action's mirrored task on the bank and the Line Table (R42, R63, R65, R67). -/
abbrev ActionDone (s t : State) : Action → Prop
  | .cell c b v => CellWritten s t c b v ∧ t.lineTable = s.lineTable
  | .trim l v => TrimWritten s t l v ∧ t.lineTable = s.lineTable
  | .place l bus hold => LinePlaced s t l bus hold ∧ t.mix = s.mix
  | .tone l on => ToneSet s t l on ∧ t.mix = s.mix

/-- Whether port `p` owns what an action needs: the bus of a cell and its line, the line of a line action, the bus of a placement
(R43, R64, R66, R68). -/
abbrev Owns (s : State) (p : Port) : Action → Prop
  | .cell c b _ => s.busOwner b = p ∧ ∀ l, c = Line.contributor l → (s.line l).owner = some p
  | .trim l _ => (s.line l).owner = some p
  | .place l bus _ => (s.line l).owner = some p ∧ ∀ b, bus = some b → s.busOwner b = p
  | .tone l _ => (s.line l).owner = some p

/-- The bytes of a step record that carries an action (R189); the bytes a kind does not use are `rest`. -/
def actionRecord : Action → List Byte → List Byte
  | .cell c b v, rest => ([0x01, num c, num b] ++ two v ++ rest).take 8
  | .trim l v, rest => ([0x02, num l] ++ two v ++ rest).take 8
  | .place l bus hold, rest => ([0x03, num l, busByte bus, holdByte hold] ++ rest).take 8
  | .tone l on, rest => ([0x06, num l, flagByte on] ++ rest).take 8

/-- The command that carries out the step of an action outside a group (R132). -/
def actionStep (p : Port) : Action → Instr
  | .cell _ _ _ => .stepSetCell p
  | .trim _ _ => .stepSetTrim p
  | .place _ _ _ => .stepPlace p
  | .tone _ _ => .stepTone p

/-- The ranges of R114 in the bytes of R189, a kind code outside 0x01 to 0x0A having none. -/
def recordInRange (record : List Byte) : Bool :=
  let b := byteAt record
  match b 0 with
  | 1 => inRange 1 40 (b 1) && inRange 1 8 (b 2)
  | 2 => inRange 1 24 (b 1)
  | 3 => inRange 1 24 (b 1) && inRange 0 8 (b 2) && inRange 0 16 (b 3)
  | 4 => inRange 1 24 (b 1) && inRange 1 16 (b 2)
  | 5 => inRange 1 24 (b 1)
  | 6 => inRange 1 24 (b 1) && inRange 0 1 (b 2)
  | 7 => true
  | 8 => inRange 1 24 (b 1) && inRange 0 2 (b 2) && inRange 0 1 (b 5)
  | 9 => inRange 1 16 (b 1)
  | 10 => true
  | _ => false

/-- The command that examines a record of this kind code (R189, log 17); none for a code that is no kind. -/
def stepOfKind (p : Port) : Nat → Option Instr
  | 1 => some (.stepSetCell p)
  | 2 => some (.stepSetTrim p)
  | 3 => some (.stepPlace p)
  | 4 => some (.stepTalkOn p)
  | 5 => some (.stepTalkOff p)
  | 6 => some (.stepTone p)
  | 7 => some (.stepWait p)
  | 8 => some (.stepAwait p)
  | 9 => some (.stepGroup p)
  | 10 => some (.stepEnd p)
  | _ => none

/-- A command that examines a step of port `p`'s player (R131). -/
abbrev StepOf (p : Port) (c : Instr) : Prop :=
  (∃ k, stepOfKind p k = some c) ∨ c = .examineInvalidStep p ∨ c = .examineMalformedStep p

/-- The first check of R137 that the step at address `a` fails as a step of a group of port `p`. -/
def groupCheck (s : State) (p : Port) (a : Nat) : Option PlayerFault :=
  if s.recordValid p a = false then some .invalid
  else
    match decodeStep (s.record p a) with
    | none => some .badStep
    | some (.act x) => if a = 255 then some .ranOff else if (s.actionDenied p x).isSome then some .notOwner else none
    | some _ => some .badGroup

/-- The contributor input in a frame (R11): the received sample of its channel (R4), 0 for a line that is not connected. -/
def inputOf (s : State) (rx : InputFrame) (c : Contributor) : Int :=
  let x := (channelOf (tget rx ⟨c.val / 8, by omega⟩) ⟨c.val % 8, by omega⟩).toInt
  match c.line? with
  | some l => if (s.line l).connected then x else 0
  | none => x

/-- Rescaling (R12). -/
def rounded (v : Int) : Int := Int.fdiv (v + 16384) 32768

/-- Saturation (R2). -/
def saturated (v : Int) : Int := max (-8388608) (min 8388607 v)

/-- The current coefficient of a cell, as an integer. -/
def gainOf (s : State) (c : Contributor) (b : Bus) : Int := ((tget (tget s.mix.cells c) b).current : Int)

/-- The sum of the products on bus `b` of the contributors that `who` picks (R14, R15). -/
def sumOn (s : State) (rx : InputFrame) (b : Bus) (who : Contributor → Bool) : Int :=
  ((List.finRange 40).map fun c => if who c then inputOf s rx c * gainOf s c b else 0).sum

/-- What a FREE or HELD line hears: the hold source while HELD with one, else the park source, at the park gain (R18). -/
def feedOf (s : State) (rx : InputFrame) (l : Line) : Int :=
  let source := if (s.line l).status = .held then (s.line l).hold.getD s.mix.parkSource else s.mix.parkSource
  inputOf s rx (Source.contributor source) * (s.mix.parkGain.current : Int)

/-- The program term: for a PLACED line the OTHER contributors' products on its return bus, else the feed (R17, R18). -/
def programOf (s : State) (rx : InputFrame) (l : Line) : Int :=
  match (s.line l).status, (s.line l).bus with
  | .placed, some b => sumOn s rx b fun c => c != Line.contributor l
  | _, _ => feedOf s rx l

/-- The return before saturation: the program term rescaled, trimmed and rescaled again, plus the rescaled talk term (R19, R20,
R22, R23). -/
def returnSum (s : State) (rx : InputFrame) (l : Line) : Int :=
  rounded (rounded (programOf s rx l) * ((tget s.mix.trim l).current : Int))
    + rounded (inputOf s rx (Source.contributor (tget s.mix.lastTalk l)) * ((tget s.mix.talkLevel l).current : Int))

/-- An output in meter order before saturation, and whether saturation acts on it (R16, R26, R27); `phase` is the tone phase
(R25). -/
def outputOf (s : State) (rx : InputFrame) (phase : Nat) (i : MeterId) : Int :=
  if h : i.val < 24 then
    let l : Line := ⟨i.val, h⟩
    if (s.line l).connected = false then 0
    else if (s.line l).tone then (if phase < 24 then 1056000 else -1056000)
    else returnSum s rx l
  else rounded (sumOn s rx ⟨i.val - 24, by omega⟩ fun _ => true)

/-- No claim wait, chunk timer, player's timer or snapshot timer has reached zero without its expiry being taken (log 4). -/
abbrev NothingOverdue (s : State) : Prop :=
  (∀ l p, tget (s.line l).waiters p ≠ some (.frames 0)) ∧ (∀ p, s.chunkTimerDue p = false) ∧
  (∀ p, s.waitTimerDue p = false) ∧ (∀ p l c m, (s.player p).state ≠ .awaiting (.frames 0) l c m) ∧ s.snapshotDue = false

/-- No debounced change of a line is due (R53, log 4). -/
abbrev NoSignalDue (s : State) : Prop := ∀ l, s.connectedDue l = false ∧ s.attentionDue l = false

/-- Every player that awaits this condition of this line has gone on, the others are as before (R135). -/
abbrev AwaitingTold (s t : State) (l : Line) (cond : Condition) : Prop :=
  ∀ q, t.player q =
    match (s.player q).state with
    | .awaiting _ l' c' _ => if l' = l ∧ c' = cond then pastWait (s.player q) else s.player q
    | _ => s.player q

/-- What the last action of a group that writes an item writes into it (R38): `f` says what an action writes. -/
def lastWrite {α : Type} (g : List Staged) (f : Action → Option α) : Option α := g.reverse.findSome? fun a => f a.action

/-- What an action writes into the target of a cell. -/
def cellWrite (c : Contributor) (b : Bus) : Action → Option Nat
  | .cell c' b' v => if c' = c ∧ b' = b then some v else none
  | _ => none

/-- What an action writes into the stored trim of a line. -/
def trimWrite (l : Line) : Action → Option Nat
  | .trim l' v => if l' = l then some v else none
  | _ => none

/-- What an action writes into the return bus of a line (R63). -/
def busWrite (l : Line) : Action → Option (Option Bus)
  | .place l' bus _ => if l' = l then some bus else none
  | _ => none

/-- What an action writes into the hold source of a line: PLACE on a bus without one leaves it (R62). -/
def holdWrite (l : Line) : Action → Option (Option Source)
  | .place l' bus hold => if l' = l ∧ (bus = none ∨ hold ≠ none) then some hold else none
  | _ => none

/-- What an action writes into the tone field of a line. -/
def toneWrite (l : Line) : Action → Option Bool
  | .tone l' on => if l' = l then some on else none
  | _ => none

/-- A remaining time one frame on (R3). -/
def frameLess : TimeLeft → TimeLeft
  | .frames n => .frames (n - 1)
  | .unlimited => .unlimited

/-- A player's timer one frame on (R134, R136). -/
def playerFrameLess : PlayerState → PlayerState
  | .waiting n => .waiting (n - 1)
  | .awaiting t l c m => .awaiting (frameLess t) l c m
  | x => x

/-- The length of the interval that an arrival on reference `r` ends: nominal for INT, which is the measure itself (R167), from
marker to marker for LNK (R190, log 9), and as given for the word clocks; in the unit of log 7. -/
def measuredLength (s : State) (r : RefId) (length : Nat) : Nat :=
  match r.val with
  | 0 => 1000000000
  | 3 => s.clock.marker.getD 0 / 256
  | _ => length

/-- The whole frame's marker timing after the signalling word of link A0 (R190, log 9): a frame has 256 bit periods of the
generator's present rate; a word of zeros carries no marker (R165). -/
def markerTimed (c : FrameClock) (word : SampleWord) : FrameClock :=
  let bit := c.rate.getD 1000000000
  let offset := word.toNat / 65536
  if word = 0 then { c with marker := none, sinceMarker := c.sinceMarker.map fun n => n + 256 * bit }
  else { c with marker := some (c.sinceMarker.getD 0 + offset * bit), sinceMarker := some ((256 - offset) * bit) }

/-- The missing periods that R167 counts in a stretch of this time without a marker, in 256ths of the unit of log 7: the number of
k from 2 on with more than k nominal periods passed. -/
def missingIn (time : Nat) : Nat := (time - 1) / 256000000000 - 1

/-- The missing periods of LNK that have not been counted yet: up to the marker that has come, else up to the present frame (R167,
R190, log 9). -/
def missingLeft (s : State) : Nat := missingIn (s.clock.marker.getD (s.clock.sinceMarker.getD 0)) - s.clock.missed

/-- State `u` after this many MISSING_PERIOD commands of LNK from `s`. -/
def MissingTaken : Nat → State → State → Prop
  | 0, s, u => u = s
  | n + 1, s, u => ∃ v, exec (.missingPeriod 3) s = .next v ∧ MissingTaken n v u

/-- State `u` after what LNK's markers have left due in `s`: the arrival of a marker that has come, else the missing periods; nothing
while LNK is OFF (R167, R190, log 4). -/
def LinkPeriodsTaken (s u : State) : Prop :=
  if (s.ref 3).state = .off then u = s
  else if s.clock.marker = none then MissingTaken (missingLeft s) s u
  else exec (.referencePeriod 3 0) s = .next u

/-- An interval of this length on reference `r` is sound: within 500 ppm of 1/48,000 second, and always on INT (R167); lengths are
in the unit of log 7. -/
def soundInterval (r : RefId) (length : Nat) : Bool :=
  r.val == 0 || inRange 999500000 1000500000 length

/-- The sound periods in a row that lock a reference (R168). -/
def lockPeriods (r : RefId) : Nat := if r.val = 0 then 256 else 4096

/-- An arrival on reference `r` is taken as a period's end: the reference is enabled and its interval open, no lock or loss of it is
due (log 4), and for LNK a marker has come with no period missing before it (log 9). -/
abbrev PeriodEnds (s : State) (r : RefId) : Prop :=
  (s.ref r).state ≠ .off ∧ (s.ref r).armed = true ∧ (s.ref r).reached = false ∧
  (r.val = 3 → s.clock.marker ≠ none ∧ missingLeft s = 0)

/-- Only reference `r` may differ among the reference records, and only in its count, its marks and its length. -/
abbrev OnlyCounted (s t : State) (r : RefId) : Prop :=
  (∀ k, k ≠ r → t.ref k = s.ref k) ∧ (t.ref r).state = (s.ref r).state

/-- The effect of a faulty period on a count (R168): back to 0 while ACQUIRING, up by one while LOCKED, where the eighth is the
loss's (log 4). -/
abbrev FaultCounted (s t : State) (r : RefId) : Prop :=
  if (s.ref r).state = .acquiring then (t.ref r).count = 0 ∧ (t.ref r).reached = false
  else if (s.ref r).count + 1 < 8 then (t.ref r).count = (s.ref r).count + 1 ∧ (t.ref r).reached = false
  else (t.ref r).count = (s.ref r).count ∧ (t.ref r).reached = true

/-- The parts no reference event touches: every block but the Frame Clock Unit, the ports and the queue. -/
abbrev ClockAside (s t : State) : Prop :=
  t.lineTable = s.lineTable ∧ t.mix = s.mix ∧ t.cue = s.cue ∧ t.players = s.players ∧ t.meter = s.meter ∧
  t.ports = s.ports ∧ t.pending = s.pending

/-- The power-on values of every block, as the manual's tables give them (R21, R24, R28, R36, R48, R73, R113, R117, R128, R129,
R145, R156, R158, R166, R169, R178). -/
abbrev PowerOnValues (t : State) : Prop :=
  (∀ l, t.line l = ⟨false, false, .free, none, none, none, false, none, tall none, 0, false, 0⟩) ∧
  (∀ b, (t.busOwner b).val = b.val / 2) ∧
  (∀ c b, tget (tget t.mix.cells c) b = ⟨0, 0⟩) ∧
  (∀ l, tget t.mix.storedTrim l = 32768 ∧ tget t.mix.trimDuck l = 32768 ∧ tget t.mix.trim l = ⟨32768, 32768⟩ ∧
    tget t.mix.talkLevel l = ⟨0, 0⟩ ∧ num (tget t.mix.lastTalk l) = 1) ∧
  num t.mix.parkSource = 16 ∧ t.mix.parkGain = ⟨0, 0⟩ ∧ (∀ p, tget t.mix.staging p = none) ∧ t.mix.tonePhase = 0 ∧
  (∀ i, tget t.mix.out i = 0) ∧
  (∀ p (a : Fin 256), t.record p a.val = List.replicate 8 0) ∧ (∀ p a, tget (tget t.cue.valid p) a = false) ∧
  (∀ p, t.loader p = ⟨false, 0, 0, 0, 4800, none, .none⟩) ∧
  (∀ p, t.player p = ⟨.idle, 0, .none, 0⟩) ∧
  (∀ p l, tget (tget t.notice.watch p) l = false ∧ tget (tget t.notice.events p) l = ⟨false, false, false, false⟩) ∧
  (∀ l, tget t.notice.latchView l = false) ∧ (∀ p, tget t.notice.unreadView p = false ∧ tget t.notice.line p = false) ∧
  t.notice.refChange = false ∧
  (∀ i, tget t.meter.live i = ⟨0, 0⟩) ∧ t.meter.buffer = none ∧ (∀ p, tget t.meter.waiting p = false) ∧
  (∀ r, (t.ref r).state = (if r.val = 0 then .acquiring else .off) ∧ (t.ref r).count = 0) ∧ t.clock.selected.val = 0 ∧
  t.clock.generator = .holdover ∧ t.clock.rate = none ∧ t.clock.running = false ∧
  (∀ p, (t.port p).slot = .empty ∧ (t.port p).unread = false ∧ (t.port p).writeNotTaken = false)

end Sys2Proof.Safety
end

