-- ==== Sys2Proof/WellFormed.lean ====
section
/-! DEFINITION. Which terms of `Instr` are commands that can reach the part. -/

namespace Sys2Proof

/-- The argument length of a WRITE-TASK crosses the port in one byte, so it is 0 to 255 (R176). -/
def argsFit (args : List Byte) : Bool := args.length ≤ 255

/-- A command that can reach the part: its argument bytes fit the length byte, an unknown task has a code outside R186, the
command byte of READ-STATUS is no other command's (R176), and an interval that arrives is at most two nominal periods long,
since a missing period is counted at that length (R167). -/
def Instr.wellFormed : Instr → Bool
  | .setCell _ args => argsFit args
  | .park _ args => argsFit args
  | .place _ args => argsFit args
  | .trim _ args => argsFit args
  | .tone _ args => argsFit args
  | .ackAttn _ args => argsFit args
  | .lineStatus _ args => argsFit args
  | .claim _ args => argsFit args
  | .release _ args => argsFit args
  | .hand _ args => argsFit args
  | .seize _ args => argsFit args
  | .assign _ args => argsFit args
  | .clearMatrix _ args => argsFit args
  | .talk _ args => argsFit args
  | .untalk _ args => argsFit args
  | .loadBegin _ args => argsFit args
  | .loadChunk _ args => argsFit args
  | .loadEnd _ args => argsFit args
  | .run _ args => argsFit args
  | .halt _ args => argsFit args
  | .seqStatus _ args => argsFit args
  | .watch _ args => argsFit args
  | .readNotices _ args => argsFit args
  | .snap _ args => argsFit args
  | .readSnap _ args => argsFit args
  | .refEnable _ args => argsFit args
  | .refSelect _ args => argsFit args
  | .clockStatus _ args => argsFit args
  | .unknownTask _ code args => argsFit args && !knownTaskCode code
  | .readResult _ => true
  | .readStatus _ cmd => cmd != 0x01 && cmd != 0x02 && cmd != 0x04
  | .abort _ => true
  | .stepSetCell _ => true
  | .stepSetTrim _ => true
  | .stepPlace _ => true
  | .stepTone _ => true
  | .stepTalkOn _ => true
  | .stepTalkOff _ => true
  | .stepWait _ => true
  | .stepAwait _ => true
  | .stepGroup _ => true
  | .stepEnd _ => true
  | .examineInvalidStep _ => true
  | .powerOnReset => true
  | .portReset _ => true
  | .portResetRelease _ => true
  | .freezeAsserted => true
  | .freezeReleased => true
  | .frameEvent _ => true
  | .signallingWord _ => true
  | .connect _ => true
  | .disconnect _ => true
  | .attentionRaised _ => true
  | .attentionDropped _ => true
  | .claimWaitExpiry _ _ => true
  | .chunkTimerExpiry _ => true
  | .waitTimerExpiry _ => true
  | .awaitTimeout _ => true
  | .snapshotExpiry => true
  | .referencePeriod _ length => length ≤ 2 * Config.nominalPeriod
  | .missingPeriod _ => true
  | .referenceLock _ => true
  | .referenceLoss _ => true
  | .examineMalformedStep _ => true

end Sys2Proof
end

