-- ==== Sys2Proof/Certificates/Slice0/Obligations.lean ====
section
/-! DEFINITION. The statements for the provers. Words used here stand in Sys2Proof/Safety.lean. -/

open Sys2Proof Sys2Proof.Machine Sys2Proof.Safety

/-! ## Queue and link -/

/-- One step runs the command at the front of the queue on the state with the queue's rest; an empty queue idles (log 6). -/
def Obligations.StepRunsTheFrontCommand : Prop :=
  (∀ (c : Instr) (rest : List Instr) (s : State), step (s.withPending (c :: rest)) = exec c (s.withPending rest)) ∧
  ∀ s : State, s.pending = [] → step s = .next s

/-- Every command answers a next state with the queue as it was, and only a frame event and power-on reset move a current
coefficient, the tone phase or a transmitted output (R24, R29, R34, R8). -/
def Obligations.OnlyFrameEventsMoveCurrents : Prop :=
  ∀ (c : Instr) (s : State), ∃ t, exec c s = .next t ∧ t.pending = s.pending ∧
    ((∀ rx, c ≠ .frameEvent rx) → c ≠ .powerOnReset →
      (∀ k b, (tget (tget t.mix.cells k) b).current = (tget (tget s.mix.cells k) b).current) ∧
      (∀ l, (tget t.mix.trim l).current = (tget s.mix.trim l).current ∧
        (tget t.mix.talkLevel l).current = (tget s.mix.talkLevel l).current) ∧
      t.mix.parkGain.current = s.mix.parkGain.current ∧ t.mix.tonePhase = s.mix.tonePhase ∧ t.mix.out = s.mix.out)

/-- The command bytes of every transaction that can reach the part are read back as that transaction, whatever follows them, and
as nothing while the last of them is missing (R176); a task's bytes are command 0x01, its code of R186, its argument length and
its arguments. -/
def Obligations.LinkTransactionsRoundTrip : Prop :=
  (∀ (c : Instr) (p : Port) (bytes : List Byte), c.wellFormed = true → encodeLink c = some (p, bytes) →
    (∀ more, decodeLink p (bytes ++ more) = some c) ∧ ∀ k, k < bytes.length → decodeLink p (bytes.take k) = none) ∧
  ∀ (c : Instr) (row : TaskRow), taskRow c = some row →
    encodeLink c = some (row.port, 0x01 :: row.code :: BitVec.ofNat 8 row.args.length :: row.args)

/-- The intake checks of R179 in their order, on a port that takes the task: an unknown code, a wrong length, a changing task under
FREEZE; each leaves the part as it was but for the result. -/
def Obligations.IntakeChecksRefuseTasks : Prop :=
  (∀ (p : Port) (code : Byte) (args : List Byte) (s : State), Ready s p → knownTaskCode code = false →
    ∃ t, exec (.unknownTask p code args) s = .next t ∧ Refused s t p code args .unknownTask 0) ∧
  ∀ (c : Instr) (row : TaskRow) (s : State), taskRow c = some row → Ready s row.port →
    RefusedByFirst c s row.port row.code row.args
      [(!row.lengthOk, .badArg, 0), (row.changing && s.ports.freeze, .frozen, 0)]

/-- A port whose reset line is held takes no transaction (R184); a WRITE-TASK that finds the slot WORKING is not taken: it sets the
write-not-taken flag and answers the status byte (R177, R178). -/
def Obligations.TransactionsThatAreNotTaken : Prop :=
  (∀ (c : Instr) (p : Port) (s : State), transactionPort c = some p → (s.port p).held = true → exec c s = .next s) ∧
  ∀ (c : Instr) (p : Port) (s : State), writePort c = some p → (s.port p).held = false → (s.port p).slot.isWorking = true →
    ∃ t, exec c s = .next t ∧
      t.port p = { s.port p with writeNotTaken := true, response := [t.statusByte p] } ∧
      (∀ q, q ≠ p → t.port q = s.port q) ∧ Aside s t ∧ BlocksKept s t ∧ NoticeDriven s t

/-- READ-RESULT returns the result record and clears the unread mark; the slot stays (R181). READ-STATUS answers the status byte and
changes nothing else. The byte carries the items of R177 in the bits of R187. In every transaction that is taken the part sends
0x00 while the command bytes are sent, then the status byte, then what the command answers, then 0x00 again (R176); a port whose
reset line is held sends nothing (R184). -/
def Obligations.ReadsAnswerRecordAndStatusByte : Prop :=
  (∀ (p : Port) (s : State), (s.port p).held = false →
    ∃ t, exec (.readResult p) s = .next t ∧
      t.port p = { s.port p with unread := false, response := t.statusByte p :: recordOf (s.port p).slot } ∧
      (∀ q, q ≠ p → t.port q = s.port q) ∧ UnreadTold s t p false ∧ Aside s t ∧ BlocksKept s t ∧
      t.notice = { s.notice with unreadView := t.notice.unreadView, line := t.notice.line } ∧ NoticeLinesFollow t) ∧
  (∀ (p : Port) (cmd : Byte) (s : State), (s.port p).held = false →
    ∃ t, exec (.readStatus p cmd) s = .next t ∧ t.port p = { s.port p with response := [t.statusByte p] } ∧
      (∀ q, q ≠ p → t.port q = s.port q) ∧ Aside s t ∧ BlocksKept s t ∧ NoticeDriven s t) ∧
  (∀ (p : Port) (s : State),
    (s.statusByte p).toNat / 64 = (match (s.port p).slot with
      | .empty => 0
      | .working _ _ => 1
      | .done _ _ _ => if (s.port p).unread then 3 else 2) ∧
    ((s.statusByte p).getLsbD 5 = true ↔ ∃ l, tget (tget s.notice.events p) l ≠ EventSet.empty) ∧
    ((s.statusByte p).getLsbD 4 = true ↔ ∃ l, tget (tget s.notice.watch p) l = true ∧ tget s.notice.latchView l = true) ∧
    ((s.statusByte p).getLsbD 3 = true ↔ p = 0 ∧ s.notice.refChange = true) ∧
    (s.statusByte p).getLsbD 2 = (s.port p).writeNotTaken ∧
    (s.statusByte p).getLsbD 1 = s.ports.freeze ∧
    ((s.statusByte p).getLsbD 0 = true ↔ s.clock.generator = .holdover)) ∧
  (∀ (c : Instr) (p : Port) (bytes : List Byte) (s : State), encodeLink c = some (p, bytes) → (s.port p).held = false →
    ∃ t answer, exec c s = .next t ∧ (t.port p).response = t.statusByte p :: answer ∧
      ∀ k, t.sends c k = some (if k < bytes.length then 0x00
        else if k = bytes.length then t.statusByte p
        else answer.getD (k - bytes.length - 1) 0x00)) ∧
  ∀ (c : Instr) (p : Port) (bytes : List Byte) (s : State), encodeLink c = some (p, bytes) → (s.port p).held = true →
    ∃ t, exec c s = .next t ∧ ∀ k, t.sends c k = none

/-- ABORT ends a waiting SNAP and a waiting CLAIM, ENDED Aborted with response byte 1, and leaves an EMPTY or DONE slot with
response byte 0 (R182, R82, R162). -/
def Obligations.AbortEndsTheWaitingTask : Prop :=
  (∀ (p : Port) (args : List Byte) (s : State), (s.port p).held = false → (s.port p).slot = .working 0x68 args →
    ∃ t, exec (.abort p) s = .next t ∧
      t.port p = ⟨.done 0x68 args (ends .ended .aborted (portDetail s.snapHolder)), true, (s.port p).writeNotTaken, false,
        [t.statusByte p, 1]⟩ ∧
      (∀ q, q ≠ p → t.port q = s.port q) ∧ UnreadTold s t p true ∧ Aside s t ∧
      t.meter = { s.meter with waiting := t.meter.waiting } ∧ tget t.meter.waiting p = false ∧
      (∀ q, q ≠ p → tget t.meter.waiting q = tget s.meter.waiting q) ∧
      t.lineTable = s.lineTable ∧ t.mix = s.mix ∧ t.cue = s.cue ∧ t.players = s.players ∧ t.clock = s.clock ∧
      t.notice = { s.notice with unreadView := t.notice.unreadView, line := t.notice.line } ∧ NoticeLinesFollow t) ∧
  (∀ (p : Port) (l : Line) (code : Byte) (args : List Byte) (s : State), (s.port p).held = false → code ≠ 0x68 →
    (s.port p).slot = .working code args → (∀ k, (tget (s.line k).waiters p).isSome = true ↔ k = l) →
    ∃ t, exec (.abort p) s = .next t ∧
      t.port p = ⟨.done code args (ends .ended .aborted (portDetail (s.line l).owner)), true, (s.port p).writeNotTaken, false,
        [t.statusByte p, 1]⟩ ∧
      (∀ q, q ≠ p → t.port q = s.port q) ∧ UnreadTold s t p true ∧ Aside s t ∧
      OnlyLine s t l ∧ t.line l = { s.line l with waiters := (t.line l).waiters } ∧
      (∀ q, tget (t.line l).waiters q = if q = p then none else tget (s.line l).waiters q) ∧
      t.mix = s.mix ∧ t.cue = s.cue ∧ t.players = s.players ∧ t.meter = s.meter ∧ t.clock = s.clock ∧
      t.notice = { s.notice with unreadView := t.notice.unreadView, line := t.notice.line } ∧ NoticeLinesFollow t) ∧
  ∀ (p : Port) (s : State), Ready s p →
    ∃ t, exec (.abort p) s = .next t ∧ t.port p = { s.port p with response := [t.statusByte p, 0] } ∧
      (∀ q, q ≠ p → t.port q = s.port q) ∧ Aside s t ∧ BlocksKept s t ∧ NoticeDriven s t

/-! ## Resets and FREEZE -/

/-- A port reset: the slot EMPTY, the port's waits, talk slots, player, load, capture, buffer, watch set and event table ended as
R184 lists, and everything else, its lines and buses among it, as before. A line already held takes no second reset (log 3);
the port drives nothing (log 13). -/
def Obligations.PortResetClearsThePort : Prop :=
  (∀ (p : Port) (s : State), (s.port p).held = false →
    ∃ t, exec (.portReset p) s = .next t ∧ t.port p = ⟨.empty, false, false, true, []⟩ ∧
      (∀ q, q ≠ p → t.port q = s.port q) ∧ Aside s t ∧ t.clock = s.clock ∧
      t.lineTable.busOwner = s.lineTable.busOwner ∧
      (∀ l, t.line l = { s.line l with
          talk := if (s.line l).talk.map TalkSlot.talker = some p then none else (s.line l).talk
          waiters := (t.line l).waiters } ∧
        ∀ q, tget (t.line l).waiters q = if q = p then none else tget (s.line l).waiters q) ∧
      t.mix = { s.mix with
        talkLevel := t.mix.talkLevel, trimDuck := t.mix.trimDuck, trim := t.mix.trim, staging := t.mix.staging } ∧
      (∀ l, if (s.line l).talk.map TalkSlot.talker = some p then
          tget t.mix.talkLevel l = aimed (tget s.mix.talkLevel l) 0 ∧ tget t.mix.trimDuck l = 32768 ∧
          tget t.mix.trim l = aimed (tget s.mix.trim l) (tget s.mix.storedTrim l)
        else tget t.mix.talkLevel l = tget s.mix.talkLevel l ∧ tget t.mix.trimDuck l = tget s.mix.trimDuck l ∧
          tget t.mix.trim l = tget s.mix.trim l) ∧
      OtherPlayersKept s t p ∧
      t.player p = (if (s.player p).state = .idle then s.player p else endedPlayer .portReset (s.player p).addr) ∧
      tget t.mix.staging p = (if (s.player p).state = .idle then tget s.mix.staging p else none) ∧
      (∀ q, q ≠ p → tget t.mix.staging q = tget s.mix.staging q) ∧
      t.cue = { s.cue with loaders := t.cue.loaders } ∧ (∀ q, q ≠ p → t.loader q = s.loader q) ∧
      t.loader p = (if (s.loader p).loading then { s.loader p with loading := false, timer := none, outcome := .abandoned }
        else s.loader p) ∧
      t.meter.live = s.meter.live ∧ t.meter.buffer = (if s.snapHolder = some p then none else s.meter.buffer) ∧
      (∀ q, tget t.meter.waiting q = if q = p then false else tget s.meter.waiting q) ∧
      t.notice.latchView = s.notice.latchView ∧ t.notice.refChange = s.notice.refChange ∧ UnreadTold s t p false ∧
      (∀ q l, tget (tget t.notice.watch q) l = (if q = p then false else tget (tget s.notice.watch q) l) ∧
        tget (tget t.notice.events q) l = (if q = p then EventSet.empty else tget (tget s.notice.events q) l)) ∧
      NoticeLinesFollow t) ∧
  ∀ (p : Port) (s : State), (s.port p).held = true → exec (.portReset p) s = .next s

/-- The release of a port reset line lets the port take transactions again (R184); an assertion of FREEZE changes its level and
nothing else; a release makes every PAUSED player STEPPING at the same address, but where an assertion follows it in the queue, both
come before a player is told and leave it PAUSED (R183, R139; that the queue decides is log 15); the commands of a PAUSED player's
steps change nothing (log 3). -/
def Obligations.ResetReleaseAndFreezeEvents : Prop :=
  (∀ (p : Port) (s : State), ∃ t, exec (.portResetRelease p) s = .next t ∧ t.port p = { s.port p with held := false } ∧
    (∀ q, q ≠ p → t.port q = s.port q) ∧ Aside s t ∧ BlocksKept s t ∧ t.notice = s.notice) ∧
  (∀ s : State, ∃ t, exec .freezeAsserted s = .next t ∧ t.ports = { s.ports with freeze := true } ∧ BlocksKept s t ∧
    t.notice = s.notice ∧ t.free = s.free ∧ t.pending = s.pending) ∧
  (∀ s : State, s.pending.head? ≠ some .freezeAsserted → ∃ t, exec .freezeReleased s = .next t ∧
    t.ports = { s.ports with freeze := false } ∧ PausedTold s t ∧ t.lineTable = s.lineTable ∧ t.mix = s.mix ∧ t.cue = s.cue ∧
    t.meter = s.meter ∧ t.clock = s.clock ∧ t.notice = s.notice ∧ t.free = s.free ∧ t.pending = s.pending) ∧
  (∀ (rest : List Instr) (s : State), s.pending = .freezeReleased :: .freezeAsserted :: rest → ∃ t u, step s = .next t ∧
    step t = .next u ∧ t.ports = { s.ports with freeze := false } ∧ u.ports = { s.ports with freeze := true } ∧
    BlocksKept s t ∧ BlocksKept s u ∧ u.notice = s.notice ∧ u.free = s.free ∧ u.pending = rest) ∧
  ∀ (p : Port) (c : Instr) (s : State), (s.player p).state = .paused → StepOf p c → exec c s = .next s

/-- Power-on reset sets every block to the power-on values its chapter gives (R185), and `State.reset` has them. The levels of the
FREEZE and port reset pins, the queue and the free-value counter stand (the model's choice: log 1, log 2, log 6, log 11). -/
def Obligations.PowerOnResetSetsPowerOnValues : Prop :=
  PowerOnValues State.reset ∧
  ∀ s : State, ∃ t, exec .powerOnReset s = .next t ∧ PowerOnValues t ∧ (∀ p, (t.port p).held = (s.port p).held) ∧ Aside s t

/-! ## Contribution matrix and lines -/

/-- SET-CELL from a port that owns the bus, and the line where the contributor is one, writes that cell's target; the detail is the
current value (R42). PARK from port 0 writes the park source and the park gain target; the detail is the current park gain
(R45). -/
def Obligations.MatrixTasksWriteTheirTargets : Prop :=
  (∀ (p : Port) (c : Contributor) (b : Bus) (hi lo : Byte) (s : State), Ready s p → s.ports.freeze = false →
    Owns s p (.cell c b (wide hi lo)) →
    ∃ t, exec (.setCell p [num c, num b, hi, lo]) s = .next t ∧
      TaskDone s t p 0x10 [num c, num b, hi, lo] (ends .done .none (tget (tget s.mix.cells c) b).current) ∧
      CellWritten s t c b (wide hi lo) ∧
      t.lineTable = s.lineTable ∧ t.cue = s.cue ∧ t.players = s.players ∧ t.meter = s.meter ∧ t.clock = s.clock) ∧
  ∀ (x : Source) (hi lo : Byte) (s : State), Ready s 0 → s.ports.freeze = false →
    ∃ t, exec (.park 0 [num x, hi, lo]) s = .next t ∧
      TaskDone s t 0 0x11 [num x, hi, lo] (ends .done .none s.mix.parkGain.current) ∧
      t.mix = { s.mix with parkSource := x, parkGain := aimed s.mix.parkGain (wide hi lo) } ∧
      t.lineTable = s.lineTable ∧ t.cue = s.cue ∧ t.players = s.players ∧ t.meter = s.meter ∧ t.clock = s.clock

/-- PLACE from a port that owns the line, and the bus where one is named, moves the line as R63's table gives; the detail is the
return bus before, 0 for none. -/
def Obligations.PlaceMovesTheLine : Prop :=
  ∀ (p : Port) (l : Line) (bus : Option Bus) (hold : Option Source) (s : State), Ready s p → s.ports.freeze = false →
    Owns s p (.place l bus hold) →
    ∃ t, exec (.place p [num l, busByte bus, holdByte hold]) s = .next t ∧
      TaskDone s t p 0x20 [num l, busByte bus, holdByte hold]
        (ends .done .none (((s.line l).bus.map fun b => b.val + 1).getD 0)) ∧
      LinePlaced s t l bus hold ∧
      t.mix = s.mix ∧ t.cue = s.cue ∧ t.players = s.players ∧ t.meter = s.meter ∧ t.clock = s.clock

/-- TRIM and TONE from the line's owner write the stored trim, with its trim target, and the tone field; the details are the
values before (R65, R30, R67). -/
def Obligations.TrimAndToneWriteTheLine : Prop :=
  (∀ (p : Port) (l : Line) (hi lo : Byte) (s : State), Ready s p → s.ports.freeze = false → (s.line l).owner = some p →
    ∃ t, exec (.trim p [num l, hi, lo]) s = .next t ∧
      TaskDone s t p 0x21 [num l, hi, lo] (ends .done .none (tget s.mix.storedTrim l)) ∧ TrimWritten s t l (wide hi lo) ∧
      t.lineTable = s.lineTable ∧ t.cue = s.cue ∧ t.players = s.players ∧ t.meter = s.meter ∧ t.clock = s.clock) ∧
  ∀ (p : Port) (l : Line) (on : Bool) (s : State), Ready s p → s.ports.freeze = false → (s.line l).owner = some p →
    ∃ t, exec (.tone p [num l, flagByte on]) s = .next t ∧
      TaskDone s t p 0x22 [num l, flagByte on] (ends .done .none (if (s.line l).tone then 1 else 0)) ∧ ToneSet s t l on ∧
      t.mix = s.mix ∧ t.cue = s.cue ∧ t.players = s.players ∧ t.meter = s.meter ∧ t.clock = s.clock

/-- ACK-ATTN from the owner, or from any port on a FREE line, clears the latch and tells the Notice Unit; the detail is the latch
before (R69, R146). -/
def Obligations.AckAttnClearsTheLatch : Prop :=
  ∀ (p : Port) (l : Line) (s : State), Ready s p → (s.line l).owner = none ∨ (s.line l).owner = some p →
    ∃ t, exec (.ackAttn p [num l]) s = .next t ∧
      TaskTaken s t p 0x23 [num l] (ends .done .none (if (s.line l).attention then 1 else 0)) ∧
      OnlyLine s t l ∧ t.line l = { s.line l with attention := false } ∧
      t.notice = { s.notice with
        latchView := t.notice.latchView, unreadView := t.notice.unreadView, line := t.notice.line } ∧
      (∀ k, tget t.notice.latchView k = if k = l then false else tget s.notice.latchView k) ∧
      t.mix = s.mix ∧ t.cue = s.cue ∧ t.players = s.players ∧ t.meter = s.meter ∧ t.clock = s.clock

/-- LINE-STATUS returns the record with the stored trim in the bytes of R188 and changes nothing else (R71). -/
def Obligations.LineStatusReportsTheRecord : Prop :=
  ∀ (p : Port) (l : Line) (s : State), Ready s p →
    let r := s.line l
    let waits := (List.finRange 4).filter fun q => (tget r.waiters q).isSome
    let output : List Byte :=
      [num l, flagByte r.connected, flagByte r.attention] ++
      one (match r.status with | .free => 0 | .held => 1 | .placed => 2) ++
      one ((r.owner.map fun q => q.val).getD 255) ++ [busByte r.bus, holdByte r.hold, flagByte r.tone] ++
      two (tget s.mix.storedTrim l) ++
      (match r.talk with
        | none => [255, 0, 0, 0, 0, 0]
        | some x => [num0 x.talker, num x.source] ++ two x.gain ++ two x.duck) ++
      one waits.length ++
      waits.flatMap fun q => num0 q :: (match tget r.waiters q with
        | some (.frames n) => three n
        | _ => three 0xFFFFFF)
    ∃ t, exec (.lineStatus p [num l]) s = .next t ∧
      TaskDone s t p 0x24 [num l] ⟨.done, .none, (r.owner.map fun q => q.val).getD 255, output⟩ ∧ BlocksKept s t

/-! ## Ownership -/

/-- CLAIM by the line's owner when taken (R85): a FREE line is granted with its latch cleared; the port's own line is left, DONE
AlreadyOwner; another port's line without wait is refused Busy, with a wait the port joins the waiter set and its slot goes
WORKING with the remaining wait of R79. -/
def Obligations.ClaimActsByTheOwner : Prop :=
  ∀ (p : Port) (l : Line) (hi lo : Byte) (s : State), Ready s p → s.ports.freeze = false →
    ∃ t, exec (.claim p [num l, hi, lo]) s = .next t ∧
      t.mix = s.mix ∧ t.cue = s.cue ∧ t.players = s.players ∧ t.meter = s.meter ∧ t.clock = s.clock ∧
      ((s.line l).owner = none →
        TaskTaken s t p 0x30 [num l, hi, lo] (ends .done .none 255) ∧ OnlyLine s t l ∧
        t.line l = { s.line l with status := .held, owner := some p, attention := false } ∧
        t.notice = { s.notice with
          latchView := t.notice.latchView, unreadView := t.notice.unreadView, line := t.notice.line } ∧
        ∀ k, tget t.notice.latchView k = if k = l then false else tget s.notice.latchView k) ∧
      ∀ q, (s.line l).owner = some q →
        if q = p then
          TaskDone s t p 0x30 [num l, hi, lo] (ends .done .alreadyOwner p.val) ∧ t.lineTable = s.lineTable
        else if wide hi lo = 0 then
          TaskDone s t p 0x30 [num l, hi, lo] (ends .refused .busy q.val) ∧ t.lineTable = s.lineTable
        else
          TaskGoesOn s t p 0x30 [num l, hi, lo] ∧ OnlyLine s t l ∧
          t.line l = { s.line l with waiters := (t.line l).waiters } ∧
          ∀ k, tget (t.line l).waiters k =
            if k = p then some (if wide hi lo = 65535 then .unlimited else .frames (48 * min (wide hi lo) 30000))
            else tget (s.line l).waiters k

/-- RELEASE by the owner: the clean-up of R75; without waiters the line is FREE with its latch as it stood, detail 255; with
waiters it is granted to the lowest-numbered one, its latch cleared, and that port's CLAIM completes with the releasing port in
the detail. TALK-ENDED goes to a talk-slot holder other than the releasing port (R87, R80, R77). -/
def Obligations.ReleaseFreesOrGrantsTheLine : Prop :=
  ∀ (p : Port) (l : Line) (new : Option Port) (s : State), Ready s p → s.ports.freeze = false →
    (s.line l).owner = some p →
    (∀ q, new = some q → (tget (s.line l).waiters q).isSome = true ∧ ∀ r, r < q → tget (s.line l).waiters r = none) →
    (new = none → ∀ q, tget (s.line l).waiters q = none) →
    ∃ t, exec (.release p [num l]) s = .next t ∧
      PortsAfter s t p 0x31 [num l] (ends .done .none ((new.map fun q => q.val).getD 255))
        (fun r => if new = some r then some (ends .done .none p.val) else none) ∧
      CleanedUp s t l new ∧ (t.line l).attention = (if new = none then (s.line l).attention else false) ∧
      EventsAdded s t (fun r k e => e == .talkEnded && k == l && talkEndedTo s l p == some r) ∧
      t.notice.watch = s.notice.watch ∧ t.notice.refChange = s.notice.refChange ∧
      (∀ k, tget t.notice.latchView k = if new ≠ none ∧ k = l then false else tget s.notice.latchView k) ∧
      t.cue = s.cue ∧ t.meter = s.meter ∧ t.clock = s.clock

/-- HAND by the owner to another port: the clean-up of R75, the line HELD under the target with its latch as it stood, HANDED to
the target, TALK-ENDED to a talk-slot holder other than the handing port, and a waiting CLAIM of the target completed with the
handing port in the detail; the detail of HAND says whether the target was a waiter (R89). -/
def Obligations.HandPassesTheLine : Prop :=
  ∀ (p q : Port) (l : Line) (s : State), Ready s p → s.ports.freeze = false → (s.line l).owner = some p → q ≠ p →
    ∃ t, exec (.hand p [num l, num0 q]) s = .next t ∧
      PortsAfter s t p 0x32 [num l, num0 q] (ends .done .none (if (tget (s.line l).waiters q).isSome then 1 else 0))
        (fun r => if r = q ∧ (tget (s.line l).waiters q).isSome then some (ends .done .none p.val) else none) ∧
      CleanedUp s t l (some q) ∧ (t.line l).attention = (s.line l).attention ∧
      EventsAdded s t (fun r k e =>
        k == l && (e == .talkEnded && talkEndedTo s l p == some r || e == .handed && r == q)) ∧
      t.notice.watch = s.notice.watch ∧ t.notice.refChange = s.notice.refChange ∧
      t.notice.latchView = s.notice.latchView ∧ t.cue = s.cue ∧ t.meter = s.meter ∧ t.clock = s.clock

/-- SEIZE by port 0 (R91): a FREE line is taken as a grant; port 0's own line is left, DONE AlreadyOwner; another port's line is
cleaned up and HELD under port 0 with its latch as it stood, TAKEN to the previous owner and TALK-ENDED to a talk-slot holder
other than port 0. -/
def Obligations.SeizeTakesTheLine : Prop :=
  ∀ (l : Line) (s : State), Ready s 0 → s.ports.freeze = false →
    ∃ t, exec (.seize 0 [num l]) s = .next t ∧ t.cue = s.cue ∧ t.meter = s.meter ∧ t.clock = s.clock ∧
      ((s.line l).owner = none →
        TaskTaken s t 0 0x33 [num l] (ends .done .none 255) ∧ OnlyLine s t l ∧ t.mix = s.mix ∧ t.players = s.players ∧
        t.line l = { s.line l with status := .held, owner := some 0, attention := false } ∧
        t.notice = { s.notice with
          latchView := t.notice.latchView, unreadView := t.notice.unreadView, line := t.notice.line } ∧
        ∀ k, tget t.notice.latchView k = if k = l then false else tget s.notice.latchView k) ∧
      ∀ q, (s.line l).owner = some q →
        if q = 0 then
          TaskDone s t 0 0x33 [num l] (ends .done .alreadyOwner 0) ∧ t.lineTable = s.lineTable ∧ t.mix = s.mix ∧
          t.players = s.players
        else
          TaskTaken s t 0 0x33 [num l] (ends .done .none q.val) ∧ CleanedUp s t l (some 0) ∧
          (t.line l).attention = (s.line l).attention ∧
          EventsAdded s t (fun r k e =>
            k == l && (e == .talkEnded && talkEndedTo s l 0 == some r || e == .taken && r == q)) ∧
          t.notice.watch = s.notice.watch ∧ t.notice.refChange = s.notice.refChange ∧
          t.notice.latchView = s.notice.latchView

/-- ASSIGN by port 0 (R93): a bus the port already owns is left; a new owner gets the table entry, lines of others PLACED on the
bus go back to HELD with the rest of their record kept, cells on it of lines the new owner does not own go to target 0, source
cells stay, and the groups that name the bus are lost. The detail is the previous owner. -/
def Obligations.AssignPassesTheBus : Prop :=
  ∀ (b : Bus) (q : Port) (s : State), Ready s 0 → s.ports.freeze = false →
    ∃ t, exec (.assign 0 [num b, num0 q]) s = .next t ∧
      TaskDone s t 0 0x34 [num b, num0 q] (ends .done .none (s.busOwner b).val) ∧
      t.cue = s.cue ∧ t.meter = s.meter ∧ t.clock = s.clock ∧
      if s.busOwner b = q then t.lineTable = s.lineTable ∧ t.mix = s.mix ∧ t.players = s.players
      else
        (∀ k, t.busOwner k = if k = b then q else s.busOwner k) ∧
        (∀ l, t.line l =
          if (s.line l).status = .placed ∧ (s.line l).bus = some b ∧ (s.line l).owner ≠ some q then
            { s.line l with status := .held, bus := none }
          else s.line l) ∧
        t.mix = { s.mix with cells := t.mix.cells, staging := t.mix.staging } ∧
        (∀ (l : Line) k, tget (tget t.mix.cells (Line.contributor l)) k =
          if k = b ∧ (s.line l).owner ≠ some q then aimed (tget (tget s.mix.cells (Line.contributor l)) k) 0
          else tget (tget s.mix.cells (Line.contributor l)) k) ∧
        (∀ (x : Source), tget t.mix.cells (Source.contributor x) = tget s.mix.cells (Source.contributor x)) ∧
        GroupsLost s t (Action.namesBus b)

/-- CLEAR-MATRIX by port 0 (R96): every owned line cleaned up and FREE, every waiter set empty with each waiting CLAIM ended
Cleared, every cell target and the park gain target 0, every running player ended Cleared with its group discarded, TAKEN to each
previous owner and TALK-ENDED to each talk-slot holder but port 0; the detail is the number of owned lines. -/
def Obligations.ClearMatrixFreesEverything : Prop :=
  ∀ (s : State), Ready s 0 → s.ports.freeze = false →
    ∃ t, exec (.clearMatrix 0 []) s = .next t ∧
      PortsAfter s t 0 0x35 []
        (ends .done .none ((List.finRange 24).filter fun l => (s.line l).owner.isSome).length)
        (fun q => if ∃ l, (tget (s.line l).waiters q).isSome = true then some (ends .ended .cleared 255) else none) ∧
      t.lineTable.busOwner = s.lineTable.busOwner ∧
      (∀ l, t.line l =
        if (s.line l).owner = none then { s.line l with waiters := tall none }
        else { s.line l with
          status := .free, owner := none, bus := none, hold := none, tone := false, talk := none, waiters := tall none }) ∧
      t.mix = { s.mix with
        cells := t.mix.cells, storedTrim := t.mix.storedTrim, trimDuck := t.mix.trimDuck, trim := t.mix.trim,
        talkLevel := t.mix.talkLevel, parkGain := aimed s.mix.parkGain 0, staging := t.mix.staging } ∧
      (∀ c b, tget (tget t.mix.cells c) b = aimed (tget (tget s.mix.cells c) b) 0) ∧
      (∀ l, if (s.line l).owner = none then
          tget t.mix.storedTrim l = tget s.mix.storedTrim l ∧ tget t.mix.trimDuck l = tget s.mix.trimDuck l ∧
          tget t.mix.trim l = tget s.mix.trim l ∧ tget t.mix.talkLevel l = tget s.mix.talkLevel l
        else tget t.mix.storedTrim l = 32768 ∧ tget t.mix.trimDuck l = 32768 ∧
          tget t.mix.trim l = aimed (tget s.mix.trim l) 32768 ∧ tget t.mix.talkLevel l = aimed (tget s.mix.talkLevel l) 0) ∧
      (∀ q, t.player q =
          (if (s.player q).state = .idle then s.player q else endedPlayer .cleared (s.player q).addr) ∧
        tget t.mix.staging q = (if (s.player q).state = .idle then tget s.mix.staging q else none)) ∧
      EventsAdded s t (fun q l e =>
        e == .taken && (s.line l).owner == some q
          || e == .talkEnded && q != 0 && (s.line l).talk.map TalkSlot.talker == some q) ∧
      t.notice.watch = s.notice.watch ∧ t.notice.refChange = s.notice.refChange ∧
      t.notice.latchView = s.notice.latchView ∧ t.cue = s.cue ∧ t.meter = s.meter ∧ t.clock = s.clock

/-- The expiry of a claim wait that has reached zero removes the waiter and ends its CLAIM Timeout with the owner in the detail; the
other waiters' remaining waits stay (R79, R82). Where it has not reached zero nothing changes (log 3). -/
def Obligations.ClaimWaitExpiryEndsTheWait : Prop :=
  (∀ (l : Line) (p : Port) (s : State), tget (s.line l).waiters p = some (.frames 0) →
    ∃ t, exec (.claimWaitExpiry l p) s = .next t ∧ OnlyLine s t l ∧
      t.line l = { s.line l with waiters := (t.line l).waiters } ∧
      (∀ q, tget (t.line l).waiters q = if q = p then none else tget (s.line l).waiters q) ∧
      t.port p = delivered (s.port p) (ends .ended .timeout ((((s.line l).owner).map fun q => q.val).getD 255)) ∧
      (∀ q, q ≠ p → t.port q = s.port q) ∧ Aside s t ∧
      UnreadTold s t p ((s.port p).slot.isWorking || tget s.notice.unreadView p) ∧
      t.mix = s.mix ∧ t.cue = s.cue ∧ t.players = s.players ∧ t.meter = s.meter ∧ t.clock = s.clock ∧
      t.notice = { s.notice with unreadView := t.notice.unreadView, line := t.notice.line } ∧ NoticeLinesFollow t) ∧
  ∀ (l : Line) (p : Port) (s : State), tget (s.line l).waiters p ≠ some (.frames 0) →
    exec (.claimWaitExpiry l p) s = .next s

/-! ## Talkback -/

/-- TALK from the owner or port 0, against no slot or a slot of no lower port: the slot is the requester's with the task's fields,
the duck clamped, and the writes of R100 go to the bank; a displaced port gets TALK-ENDED; the detail is the holder before
(R107, R101). UNTALK from the holder clears the slot with the writes of R100 for a clearing, the last talk source left; the detail
is the current talk level (R110). -/
def Obligations.TalkTasksMoveTheSlot : Prop :=
  (∀ (p : Port) (l : Line) (x : Source) (g1 g0 d1 d0 : Byte) (s : State), Ready s p → (s.line l).owner.isSome = true →
    (s.line l).owner = some p ∨ p = 0 → (∀ k ∈ (s.line l).talk, p ≤ k.talker) →
    ∃ t, exec (.talk p [num l, num x, g1, g0, d1, d0]) s = .next t ∧
      TaskTaken s t p 0x40 [num l, num x, g1, g0, d1, d0]
        (ends .done .none (((s.line l).talk.map fun k => k.talker.val).getD 255)) ∧
      OnlyLine s t l ∧ t.line l = { s.line l with talk := some ⟨p, x, wide g1 g0, min (wide d1 d0) 32768⟩ } ∧
      TalkWritten s t l (wide g1 g0) (min (wide d1 d0) 32768) (some x) ∧
      EventsAdded s t (fun q k e => e == .talkEnded && k == l && talkEndedTo s l p == some q) ∧
      t.notice.watch = s.notice.watch ∧ t.notice.refChange = s.notice.refChange ∧
      t.notice.latchView = s.notice.latchView ∧
      t.cue = s.cue ∧ t.players = s.players ∧ t.meter = s.meter ∧ t.clock = s.clock) ∧
  ∀ (p : Port) (l : Line) (s : State), Ready s p → (s.line l).talk.map TalkSlot.talker = some p →
    ∃ t, exec (.untalk p [num l]) s = .next t ∧
      TaskDone s t p 0x41 [num l] (ends .done .none (tget s.mix.talkLevel l).current) ∧
      OnlyLine s t l ∧ t.line l = { s.line l with talk := none } ∧ TalkWritten s t l 0 32768 none ∧
      t.cue = s.cue ∧ t.players = s.players ∧ t.meter = s.meter ∧ t.clock = s.clock

/-! ## Loading -/

/-- LOAD-BEGIN while the port's player is IDLE clears the marks of its range and starts a load with the timeout clamped to 100 to
10,000 ms, at 48 frames each; a load in progress is abandoned (R120, R121). -/
def Obligations.LoadBeginStartsALoad : Prop :=
  ∀ (p : Port) (o c1 c0 t1 t0 : Byte) (s : State), Ready s p → wide c1 c0 ≠ 0 → o.toNat + wide c1 c0 ≤ 256 →
    (s.player p).state = .idle →
    let ms := max 100 (min (wide t1 t0) 10000)
    ∃ t, exec (.loadBegin p [o, c1, c0, t1, t0]) s = .next t ∧
      TaskDone s t p 0x50 [o, c1, c0, t1, t0] (ends .done .none ms) ∧
      t.cue = { s.cue with valid := t.cue.valid, loaders := t.cue.loaders } ∧
      t.loader p = ⟨true, o.toNat, wide c1 c0, 0, 48 * ms, some (48 * ms),
        if (s.loader p).loading then .abandoned else (s.loader p).outcome⟩ ∧
      (∀ q, q ≠ p → t.loader q = s.loader q) ∧
      (∀ q a, tget (tget t.cue.valid q) a =
        if q = p ∧ o.toNat ≤ a.val ∧ a.val < o.toNat + wide c1 c0 then false else tget (tget s.cue.valid q) a) ∧
      t.lineTable = s.lineTable ∧ t.mix = s.mix ∧ t.players = s.players ∧ t.meter = s.meter ∧ t.clock = s.clock

/-- LOAD-CHUNK of n records while the load has room for them writes their bytes at the next positions of the port's region and
nowhere else, adds n to the received count and restarts the chunk timer; the marks stay (R123). -/
def Obligations.LoadChunkStoresItsRecords : Prop :=
  ∀ (p : Port) (n : Nat) (args : List Byte) (s : State), Ready s p → 1 ≤ n → n ≤ 8 → args.length = 8 * n →
    (s.loader p).loading = true → (s.loader p).received + n ≤ (s.loader p).declared → s.cue.mem.wf = true →
    let first := recordByte p ((s.loader p).offset + (s.loader p).received) 0
    ∃ t, exec (.loadChunk p args) s = .next t ∧
      TaskDone s t p 0x51 args (ends .done .none ((s.loader p).received + n)) ∧
      t.cue = { s.cue with mem := t.cue.mem, loaders := t.cue.loaders } ∧ t.cue.mem.wf = true ∧
      (∀ k, (h : k < args.length) → t.cue.mem.read (first + k) = args[k]) ∧
      (∀ a, a < first ∨ first + args.length ≤ a → t.cue.mem.read a = s.cue.mem.read a) ∧
      t.loader p = { s.loader p with received := (s.loader p).received + n, timer := some (s.loader p).timeout } ∧
      (∀ q, q ≠ p → t.loader q = s.loader q) ∧
      t.lineTable = s.lineTable ∧ t.mix = s.mix ∧ t.players = s.players ∧ t.meter = s.meter ∧ t.clock = s.clock

/-- LOAD-END ends a load by its counts: Done with the marks of the range set, or ENDED Short (R125); the chunk timer that has
reached zero ends it TimedOut (R119), and one that has not changes nothing (log 3). The range stays as it was in both of the
latter. -/
def Obligations.LoadsEnd : Prop :=
  (∀ (p : Port) (s : State), Ready s p → (s.loader p).loading = true →
    ∃ t, exec (.loadEnd p []) s = .next t ∧
      t.cue = { s.cue with valid := t.cue.valid, loaders := t.cue.loaders } ∧
      (∀ q, q ≠ p → t.loader q = s.loader q) ∧
      (if (s.loader p).received = (s.loader p).declared then
        TaskDone s t p 0x52 [] (ends .done .none (s.loader p).received) ∧
        t.loader p = { s.loader p with loading := false, timer := none, outcome := .done } ∧
        ∀ q a, tget (tget t.cue.valid q) a =
          if q = p ∧ (s.loader p).offset ≤ a.val ∧ a.val < (s.loader p).offset + (s.loader p).declared then true
          else tget (tget s.cue.valid q) a
      else
        TaskDone s t p 0x52 [] (ends .ended .short (s.loader p).received) ∧
        t.loader p = { s.loader p with loading := false, timer := none, outcome := .short } ∧
        t.cue.valid = s.cue.valid) ∧
      t.lineTable = s.lineTable ∧ t.mix = s.mix ∧ t.players = s.players ∧ t.meter = s.meter ∧ t.clock = s.clock) ∧
  (∀ (p : Port) (s : State), (s.loader p).loading = true → (s.loader p).timer = some 0 →
    ∃ t, exec (.chunkTimerExpiry p) s = .next t ∧
      t.loader p = { s.loader p with loading := false, timer := none, outcome := .timedOut } ∧
      (∀ q, q ≠ p → t.loader q = s.loader q) ∧ t.cue = { s.cue with loaders := t.cue.loaders } ∧
      t.lineTable = s.lineTable ∧ t.mix = s.mix ∧ t.players = s.players ∧ t.meter = s.meter ∧ t.clock = s.clock ∧
      t.ports = s.ports ∧ t.notice = s.notice ∧ t.free = s.free ∧ t.pending = s.pending) ∧
  ∀ (p : Port) (s : State), (s.loader p).loading = false ∨ (s.loader p).timer ≠ some 0 →
    exec (.chunkTimerExpiry p) s = .next s

/-! ## Cue Players -/

/-- RUN of an IDLE player while its loader is IDLE makes it STEPPING at the start address, the end record left (R141); HALT ends a
player that is not IDLE, Halted at its step address with its group discarded, and leaves an IDLE one, detail 256 (R143). -/
def Obligations.RunStartsAndHaltEndsThePlayer : Prop :=
  (∀ (p : Port) (a : Byte) (s : State), Ready s p → (s.player p).state = .idle → (s.loader p).loading = false →
    ∃ t, exec (.run p [0, a]) s = .next t ∧ TaskDone s t p 0x58 [0, a] (ends .done .none a.toNat) ∧
      t.player p = { s.player p with state := .stepping, addr := a.toNat } ∧ OtherPlayersKept s t p ∧
      t.lineTable = s.lineTable ∧ t.mix = s.mix ∧ t.cue = s.cue ∧ t.meter = s.meter ∧ t.clock = s.clock) ∧
  ∀ (p : Port) (s : State), Ready s p →
    ∃ t, exec (.halt p []) s = .next t ∧ OtherPlayersKept s t p ∧
      (if (s.player p).state = .idle then
        TaskDone s t p 0x59 [] (ends .done .none 256) ∧ t.player p = s.player p ∧ t.mix = s.mix
      else
        TaskDone s t p 0x59 [] (ends .done .none (s.player p).addr) ∧
        t.player p = endedPlayer .halted (s.player p).addr ∧ GroupDiscarded s t p) ∧
      t.lineTable = s.lineTable ∧ t.cue = s.cue ∧ t.meter = s.meter ∧ t.clock = s.clock

/-- SEQ-STATUS returns the loader and the player of its port in the 18 bytes of R188 and changes nothing else (R144). -/
def Obligations.SeqStatusReportsLoaderAndPlayer : Prop :=
  ∀ (p : Port) (s : State), Ready s p →
    let d := s.loader p
    let x := s.player p
    let output : List Byte :=
      [flagByte d.loading] ++ one d.offset ++ two d.declared ++ two d.received ++ three (d.timer.getD 0) ++
      one (match d.outcome with | .none => 0 | .done => 1 | .short => 2 | .timedOut => 3 | .abandoned => 4) ++
      one (match x.state with
        | .idle => 0 | .stepping => 1 | .waiting _ => 2 | .awaiting _ _ _ _ => 3 | .pending => 4 | .paused => 5) ++
      one x.addr ++
      (match x.state with
        | .waiting n => three n
        | .awaiting (.frames n) _ _ _ => three n
        | .awaiting .unlimited _ _ _ => three 0xFFFFFF
        | _ => three 0) ++
      one (match x.endReason with
        | .none => 0 | .ended => 1 | .halted => 2 | .fault _ => 3 | .timeout => 4 | .cleared => 5 | .portReset => 6) ++
      one (match x.endReason with
        | .fault .invalid => 1 | .fault .badStep => 2 | .fault .ranOff => 3 | .fault .notOwner => 4 | .fault .badGroup => 5
        | .fault .lostLine => 6 | _ => 0) ++
      one x.endAddr
    ∃ t, exec (.seqStatus p []) s = .next t ∧ TaskDone s t p 0x5A [] ⟨.done, .none, x.addr, output⟩ ∧ BlocksKept s t

/-- SET-CELL, SET-TRIM, PLACE and TONE steps outside a group have the effect of the tasks they mirror, for the player's own port:
with the ownership the task needs the effect is made and the player goes on, without it the player ends NotOwner at the step
(R132). -/
def Obligations.ActionStepsMirrorTheirTasks : Prop :=
  ∀ (p : Port) (a : Action) (rest : List Byte) (s : State), rest.length = 8 → actionCoefficient a ≤ 65535 →
    Examines s p (actionRecord a rest) → (s.player p).addr ≠ 255 → s.ports.freeze = false →
    ∃ t, exec (actionStep p a) s = .next t ∧ NoticeDriven s t ∧ StepAside s t ∧
      (Owns s p a → ActionDone s t a ∧ WentOn s t p) ∧
      (¬ Owns s p a → Faulted s t p .notOwner (s.player p).addr)

/-- TALK-ON and TALK-OFF steps act by the rules of TALK and UNTALK, under FREEZE too; where the task would be refused the player
ends NotOwner at the step (R133, R112). -/
def Obligations.TalkStepsActAsTalkTasks : Prop :=
  (∀ (p : Port) (l : Line) (x : Source) (g1 g0 d1 d0 u : Byte) (s : State),
    Examines s p [0x04, num l, num x, g1, g0, d1, d0, u] → (s.player p).addr ≠ 255 →
    ∃ t, exec (.stepTalkOn p) s = .next t ∧ StepAside s t ∧ NoticeLinesFollow t ∧
      if (s.line l).owner.isSome = true ∧ ((s.line l).owner = some p ∨ p = 0) ∧ (∀ k ∈ (s.line l).talk, p ≤ k.talker) then
        WentOn s t p ∧ OnlyLine s t l ∧
        t.line l = { s.line l with talk := some ⟨p, x, wide g1 g0, min (wide d1 d0) 32768⟩ } ∧
        TalkWritten s t l (wide g1 g0) (min (wide d1 d0) 32768) (some x) ∧
        EventsAdded s t (fun q k e => e == .talkEnded && k == l && talkEndedTo s l p == some q) ∧
        t.notice = { s.notice with events := t.notice.events, line := t.notice.line }
      else Faulted s t p .notOwner (s.player p).addr ∧ NoticeDriven s t) ∧
  ∀ (p : Port) (l : Line) (rest : List Byte) (s : State), rest.length = 6 →
    Examines s p (0x05 :: num l :: rest) → (s.player p).addr ≠ 255 →
    ∃ t, exec (.stepTalkOff p) s = .next t ∧ StepAside s t ∧ NoticeDriven s t ∧
      if (s.line l).talk.map TalkSlot.talker = some p then
        WentOn s t p ∧ OnlyLine s t l ∧ t.line l = { s.line l with talk := none } ∧ TalkWritten s t l 0 32768 none
      else Faulted s t p .notOwner (s.player p).addr

/-- A WAIT step makes the player WAITING for its time, 0 taken as 1 ms, at 48 frames each (R134); an AWAIT step goes on at once where
its condition holds, and else makes the player AWAITING with its timeout, 0 meaning none (R135). -/
def Obligations.WaitAndAwaitStepsHoldThePlayer : Prop :=
  (∀ (p : Port) (hi lo : Byte) (rest : List Byte) (s : State), rest.length = 5 →
    Examines s p (0x07 :: hi :: lo :: rest) →
    ∃ t, exec (.stepWait p) s = .next t ∧ StepAside s t ∧ NoticeDriven s t ∧ t.lineTable = s.lineTable ∧ t.mix = s.mix ∧
      OtherPlayersKept s t p ∧ t.player p = { s.player p with state := .waiting (48 * max 1 (wide hi lo)) }) ∧
  ∀ (p : Port) (l : Line) (cond : Condition) (hi lo : Byte) (mode : AwaitMode) (u v : Byte) (s : State),
    Examines s p [0x08, num l, match cond with | .attentionLatched => 0 | .connected => 1 | .disconnected => 2, hi, lo,
      match mode with | .stop => 0 | .goOn => 1, u, v] →
    ∃ t, exec (.stepAwait p) s = .next t ∧ StepAside s t ∧ NoticeDriven s t ∧ t.lineTable = s.lineTable ∧ t.mix = s.mix ∧
      OtherPlayersKept s t p ∧
      t.player p =
        if (match cond with
          | .attentionLatched => (s.line l).attention
          | .connected => (s.line l).connected
          | .disconnected => !(s.line l).connected) = true then pastWait (s.player p)
        else { s.player p with
          state := .awaiting (if wide hi lo = 0 then .unlimited else .frames (48 * wide hi lo)) l cond mode }

/-- The expiry of a WAIT that has reached zero takes the player past it (R134); the expiry of an AWAIT ends it Timeout in STOP mode
and takes it past in GO-ON mode (R136). A timer that has not reached zero gives no expiry (log 3). -/
def Obligations.PlayerTimersExpire : Prop :=
  (∀ (p : Port) (s : State), (s.player p).state = .waiting 0 →
    ∃ t, exec (.waitTimerExpiry p) s = .next t ∧ t.player p = pastWait (s.player p) ∧ OtherPlayersKept s t p ∧
      StepAside s t ∧ t.lineTable = s.lineTable ∧ t.mix = s.mix ∧ t.notice = s.notice) ∧
  (∀ (p : Port) (s : State), (s.player p).state ≠ .waiting 0 → exec (.waitTimerExpiry p) s = .next s) ∧
  (∀ (p : Port) (l : Line) (cond : Condition) (mode : AwaitMode) (s : State),
    (s.player p).state = .awaiting (.frames 0) l cond mode →
    ∃ t, exec (.awaitTimeout p) s = .next t ∧ OtherPlayersKept s t p ∧ StepAside s t ∧ t.lineTable = s.lineTable ∧
      t.mix = s.mix ∧ t.notice = s.notice ∧
      t.player p = (match mode with
        | .stop => endedPlayer .timeout (s.player p).addr
        | .goOn => pastWait (s.player p))) ∧
  ∀ (p : Port) (s : State), (∀ l cond mode, (s.player p).state ≠ .awaiting (.frames 0) l cond mode) →
    exec (.awaitTimeout p) s = .next s

/-- A GROUP step whose every step passes the checks of R137 stages their actions in step order and makes the player PENDING at the
GROUP step (R138); otherwise the player ends with the fault of the first check that fails, at the step that failed, and nothing
is staged (R137). -/
def Obligations.GroupStepStagesOrFaults : Prop :=
  ∀ (p : Port) (n : Byte) (rest : List Byte) (s : State), rest.length = 6 → 1 ≤ n.toNat → n.toNat ≤ 16 →
    Examines s p (0x09 :: n :: rest) → (s.player p).addr ≠ 255 → s.ports.freeze = false →
    ∃ t, exec (.stepGroup p) s = .next t ∧ StepAside s t ∧ NoticeDriven s t ∧ t.lineTable = s.lineTable ∧
      ((∀ i < n.toNat, groupCheck s p ((s.player p).addr + 1 + i) = none) →
        t.mix = { s.mix with staging := t.mix.staging } ∧ (∀ q, q ≠ p → tget t.mix.staging q = tget s.mix.staging q) ∧
        OtherPlayersKept s t p ∧ t.player p = { s.player p with state := .pending } ∧
        ∃ g, tget t.mix.staging p = some g ∧ g.length = n.toNat ∧
          ∀ i, (h : i < g.length) → g[i].addr = (s.player p).addr + 1 + i ∧
            decodeStep (s.record p ((s.player p).addr + 1 + i)) = some (.act g[i].action)) ∧
      ∀ j < n.toNat, (∀ i < j, groupCheck s p ((s.player p).addr + 1 + i) = none) →
        ∀ k ∈ groupCheck s p ((s.player p).addr + 1 + j), Faulted s t p k ((s.player p).addr + 1 + j)

/-- An END step ends the player at its address (R132); an invalid record faults Invalid and a malformed one BadStep, by the command of
its kind too (R131 checks 1 and 2, R115; which command stands for which examination is log 17). A record is malformed exactly where
its kind code is none of the ten or a field lies outside the range of R114, in the bytes of R189. -/
def Obligations.EndAndBadRecordsEndThePlayer : Prop :=
  (∀ (p : Port) (rest : List Byte) (s : State), rest.length = 7 → Examines s p (0x0A :: rest) →
    ∃ t, exec (.stepEnd p) s = .next t ∧ StepAside s t ∧ NoticeDriven s t ∧ t.lineTable = s.lineTable ∧
      OtherPlayersKept s t p ∧ GroupDiscarded s t p ∧ t.player p = endedPlayer .ended (s.player p).addr) ∧
  (∀ (p : Port) (s : State), (s.player p).state = .stepping → s.recordValid p (s.player p).addr = false →
    ∃ t, exec (.examineInvalidStep p) s = .next t ∧ Faulted s t p .invalid (s.player p).addr ∧ t.notice = s.notice) ∧
  (∀ (p : Port) (record : List Byte) (s : State), Examines s p record → decodeStep record = none →
    ∃ t, exec (.examineMalformedStep p) s = .next t ∧ Faulted s t p .badStep (s.player p).addr ∧ t.notice = s.notice) ∧
  (∀ (p : Port) (record : List Byte) (c : Instr) (s : State), Examines s p record → decodeStep record = none →
    stepOfKind p (byteAt record 0) = some c →
    ∃ t, exec c s = .next t ∧ Faulted s t p .badStep (s.player p).addr ∧ NoticeDriven s t) ∧
  ∀ record : List Byte, decodeStep record = none ↔ recordInRange record = false

/-- A player that examines a SET-CELL, SET-TRIM, PLACE, TONE, GROUP, TALK-ON or TALK-OFF step faults RanOff at address 255 (R131
check 3); a step of the first five kinds elsewhere under FREEZE leaves it PAUSED at the step with nothing else changed (R131 check 4,
R139). -/
def Obligations.ChangingStepsRunOffAndPause : Prop :=
  (∀ (p : Port) (c : Instr) (record : List Byte) (s : State), Examines s p record →
    (∃ a rest, rest.length = 8 ∧ actionCoefficient a ≤ 65535 ∧ c = actionStep p a ∧ record = actionRecord a rest) ∨
      (∃ n rest, rest.length = 6 ∧ 1 ≤ n.toNat ∧ n.toNat ≤ 16 ∧ c = .stepGroup p ∧ record = 0x09 :: n :: rest) →
    ∃ t, exec c s = .next t ∧ NoticeDriven s t ∧ StepAside s t ∧
      ((s.player p).addr = 255 → Faulted s t p .ranOff 255) ∧
      ((s.player p).addr ≠ 255 → s.ports.freeze = true →
        t.player p = { s.player p with state := .paused } ∧ OtherPlayersKept s t p ∧ t.lineTable = s.lineTable ∧
        t.mix = s.mix)) ∧
  ∀ (p : Port) (c : Instr) (record : List Byte) (s : State), Examines s p record → (s.player p).addr = 255 →
    (∃ (l : Line) (x : Source) (rest : List Byte), rest.length = 5 ∧ c = .stepTalkOn p ∧
        record = 0x04 :: num l :: num x :: rest) ∨
      (∃ (l : Line) (rest : List Byte), rest.length = 6 ∧ c = .stepTalkOff p ∧ record = 0x05 :: num l :: rest) →
    ∃ t, exec c s = .next t ∧ NoticeDriven s t ∧ Faulted s t p .ranOff 255

/-! ## Notices -/

/-- WATCH replaces the port's watch set by the line map of R186, the detail the number of its lines that are latched (R152);
READ-NOTICES returns the header, the event entries and the attention entries of R154 in the bytes of R188 and empties the event
table. -/
def Obligations.WatchAndReadNotices : Prop :=
  (∀ (p : Port) (m0 m1 m2 : Byte) (s : State), Ready s p →
    let watches : Line → Bool := fun l => ([m0, m1, m2].getD (l.val / 8) 0).getLsbD (l.val % 8)
    ∃ t, exec (.watch p [m0, m1, m2]) s = .next t ∧
      TaskTaken s t p 0x60 [m0, m1, m2]
        (ends .done .none ((List.finRange 24).filter fun l => watches l && tget s.notice.latchView l).length) ∧
      (∀ q l, tget (tget t.notice.watch q) l = if q = p then watches l else tget (tget s.notice.watch q) l) ∧
      t.notice = { s.notice with watch := t.notice.watch, unreadView := t.notice.unreadView, line := t.notice.line } ∧
      BlocksKept s t) ∧
  ∀ (p : Port) (s : State), Ready s p →
    let entries := (List.finRange 24).filter fun l => tget (tget s.notice.events p) l != EventSet.empty
    let latched := (List.finRange 24).filter fun l => tget (tget s.notice.watch p) l && tget s.notice.latchView l
    let kinds : EventSet → Nat := fun e =>
      (if e.handed then 1 else 0) + (if e.taken then 2 else 0) + (if e.dropped then 4 else 0) + if e.talkEnded then 8 else 0
    ∃ t, exec (.readNotices p []) s = .next t ∧
      TaskTaken s t p 0x61 [] ⟨.done, .none, entries.length,
        one entries.length ++ one latched.length ++ [flagByte (p == 0 && s.notice.refChange)] ++
        (entries.flatMap fun l => num l :: one (kinds (tget (tget s.notice.events p) l))) ++ latched.map num⟩ ∧
      (∀ q, tget t.notice.events q = if q = p then tall EventSet.empty else tget s.notice.events q) ∧
      t.notice = { s.notice with events := t.notice.events, unreadView := t.notice.unreadView, line := t.notice.line } ∧
      BlocksKept s t

/-! ## Meters -/

/-- SNAP waits for its capture while the buffer is not another port's (R159); READ-SNAP from the holder returns the entries asked
for, 6 bytes each, and unlocks the buffer where it says so (R163); the buffer's timer that has reached zero empties it (R158), and
one that has not gives no expiry (log 3). -/
def Obligations.SnapReadSnapAndExpiry : Prop :=
  (∀ (p : Port) (s : State), Ready s p → (∀ b ∈ s.meter.buffer, b.holder = p) →
    ∃ t, exec (.snap p []) s = .next t ∧ TaskGoesOn s t p 0x68 [] ∧
      t.meter = { s.meter with waiting := t.meter.waiting } ∧
      (∀ q, tget t.meter.waiting q = if q = p then true else tget s.meter.waiting q) ∧
      t.lineTable = s.lineTable ∧ t.mix = s.mix ∧ t.cue = s.cue ∧ t.players = s.players ∧ t.clock = s.clock) ∧
  (∀ (p : Port) (first count : Byte) (unlock : Bool) (b : Snapshot) (s : State), Ready s p → s.meter.buffer = some b →
    b.holder = p → first.toNat + count.toNat ≤ 32 →
    ∃ t, exec (.readSnap p [first, count, flagByte unlock]) s = .next t ∧
      TaskDone s t p 0x69 [first, count, flagByte unlock] ⟨.done, .none, count.toNat,
        ((List.finRange 32).filter fun i => first.toNat ≤ i.val && i.val < first.toNat + count.toNat).flatMap fun i =>
          num i :: (three (tget b.entries i).peak ++ two (tget b.entries i).clips)⟩ ∧
      t.meter = { s.meter with buffer := if unlock then none else some b } ∧
      t.lineTable = s.lineTable ∧ t.mix = s.mix ∧ t.cue = s.cue ∧ t.players = s.players ∧ t.clock = s.clock) ∧
  (∀ (b : Snapshot) (s : State), s.meter.buffer = some b → b.timer = 0 →
    ∃ t, exec .snapshotExpiry s = .next t ∧ t.meter = { s.meter with buffer := none } ∧
      t.lineTable = s.lineTable ∧ t.mix = s.mix ∧ t.cue = s.cue ∧ t.players = s.players ∧ t.clock = s.clock ∧
      t.ports = s.ports ∧ t.notice = s.notice ∧ t.free = s.free ∧ t.pending = s.pending) ∧
  ∀ s : State, (∀ b ∈ s.meter.buffer, b.timer ≠ 0) → exec .snapshotExpiry s = .next s

/-- Part 6 of a frame event in which nothing is overdue: each meter takes the magnitude and the clip mark of its output (R157, R27);
a waiting capture of the lowest-numbered port fills the buffer with the updated meters for 48,000 frames, sets the live meters to
0 and completes its SNAP with the number of clipped meters, and every other waiting SNAP ends Locked (R159, R160). That the
buffer's timer counts down at a frame event, before its capture, is the model's choice (log 5). -/
def Obligations.FrameEventMetersAndCapture : Prop :=
  ∀ (rx : InputFrame) (s : State), s.clock.running = true → NothingOverdue s →
    ∃ t, exec (.frameEvent rx) s = .next t ∧
      let updated : MeterId → Meter := fun i =>
        let v := outputOf t rx s.mix.tonePhase i
        let m := tget s.meter.live i
        ⟨max m.peak (tget t.mix.out i).natAbs, if saturated v = v then m.clips else min (m.clips + 1) 65535⟩
      ((∀ p, tget s.meter.waiting p = false) →
        (∀ i, tget t.meter.live i = updated i) ∧ t.ports = s.ports ∧
        (∀ p, tget t.meter.waiting p = false) ∧
        t.meter.buffer = s.meter.buffer.map fun k => { k with timer := k.timer - 1 }) ∧
      ∀ p, tget s.meter.waiting p = true → (∀ q, q < p → tget s.meter.waiting q = false) →
        (∀ i, tget t.meter.live i = ⟨0, 0⟩) ∧ (∀ q, tget t.meter.waiting q = false) ∧
        (∃ b, t.meter.buffer = some b ∧ b.holder = p ∧ b.timer = 48000 ∧ ∀ i, tget b.entries i = updated i) ∧
        (∀ q, t.port q =
          if q = p then
            delivered (s.port q) (ends .done .none ((List.finRange 32).filter fun i => 0 < (updated i).clips).length)
          else if tget s.meter.waiting q then delivered (s.port q) (ends .ended .locked p.val) else s.port q)

/-! ## Frame clock -/

/-- REF-ENABLE from port 0 turns an OFF reference ACQUIRING with count 0 and leaves an enabled one, or turns a reference that is
neither INT nor selected OFF with count 0; the detail is its state before, and the selection and the generator stay (R171).
REF-SELECT from port 0 of a LOCKED reference selects it and, if it is a new one and the generator runs, puts the generator
FOLLOWING with 4,800 frames to reach its rate (R170, log 10); the detail is the one selected before, and no flag is set (R173).
CLOCK-STATUS returns the 15 bytes of R188; from port 0 it also reports the reference-change flag in its detail and clears it, from
the others the detail is 0 and the flag stays (R175). The model's choices: what an enable of LNK does to its marker, to the time since
one and to the missing periods counted (log 9); the 4,800 frames of the pull (log 10); a selection while the generator does not run,
which changes the selection alone (log 12). -/
def Obligations.ReferenceTasksAndClockStatus : Prop :=
  (∀ (r : RefId) (on : Bool) (s : State), Ready s 0 → (on = false → r.val ≠ 0 ∧ r ≠ s.clock.selected) →
    ∃ t, exec (.refEnable 0 [num0 r, flagByte on]) s = .next t ∧
      TaskDone s t 0 0x70 [num0 r, flagByte on]
        (ends .done .none (match (s.ref r).state with | .off => 0 | .acquiring => 1 | .locked => 2)) ∧
      (∀ k, k ≠ r → t.ref k = s.ref k) ∧
      (if on = true ∧ (s.ref r).state = .off then (t.ref r).state = .acquiring ∧ (t.ref r).count = 0
        else if on = true then t.ref r = s.ref r
        else (t.ref r).state = .off ∧ ((s.ref r).state = .off → t.ref r = s.ref r) ∧
          ((s.ref r).state ≠ .off → (t.ref r).count = 0)) ∧
      t.clock = (if r.val = 3 ∧ on = true ∧ (s.ref r).state = .off then
          { s.clock with refs := t.clock.refs, marker := none, sinceMarker := none, missed := 0 }
        else { s.clock with refs := t.clock.refs }) ∧
      t.lineTable = s.lineTable ∧ t.mix = s.mix ∧ t.cue = s.cue ∧ t.players = s.players ∧ t.meter = s.meter) ∧
  (∀ (r : RefId) (s : State), Ready s 0 → (s.ref r).state = .locked →
    ∃ t, exec (.refSelect 0 [num0 r]) s = .next t ∧
      TaskDone s t 0 0x71 [num0 r] (ends .done .none s.clock.selected.val) ∧
      t.clock = (if r = s.clock.selected then s.clock
        else if s.clock.running then { s.clock with selected := r, generator := .following, pull := 4800 }
        else { s.clock with selected := r }) ∧
      t.lineTable = s.lineTable ∧ t.mix = s.mix ∧ t.cue = s.cue ∧ t.players = s.players ∧ t.meter = s.meter) ∧
  ∀ (p : Port) (s : State), Ready s p →
    let state : RefId → Byte := fun r => match (s.ref r).state with | .off => 0 | .acquiring => 1 | .locked => 2
    let output : List Byte :=
      [state 0, state 1, state 2, state 3] ++ two (s.ref 0).count ++ two (s.ref 1).count ++ two (s.ref 2).count ++
      two (s.ref 3).count ++ [num0 s.clock.selected, if s.clock.generator = .following then 0 else 1, flagByte s.clock.running]
    ∃ t, exec (.clockStatus p []) s = .next t ∧
      TaskTaken s t p 0x72 [] ⟨.done, .none, if p = 0 ∧ s.notice.refChange then 1 else 0, output⟩ ∧
      t.notice = { s.notice with
        refChange := if p = 0 then false else s.notice.refChange
        unreadView := t.notice.unreadView, line := t.notice.line } ∧
      BlocksKept s t

/-- The periods of R167 and R168: a sound one counts up while ACQUIRING and takes a LOCKED reference's faulty count to 0, one out of
tolerance or missing counts by `FaultCounted`, the arrival after a gap only opens an interval; LNK's missing periods are those its
markers leave out, two nominal periods after the last one and at each further one, and all are counted before the marker that ends the
gap, which is not classed; a sound period of the selected
reference moves a FOLLOWING generator, to its length in the last two frames of the pull and after it, and until then to some rate
between the two (R169, R170); no other period does. The count that reaches a threshold leaves the lock or the loss due (log 4), which
the lock's and the loss's own commands take. A period that is not missing has no effect (log 3). The model's choices: the
unit of a length (log 7), the open interval (log 8), LNK's marker (log 9), the pull (log 10), the free rate (log 11). -/
def Obligations.PeriodsAreCounted : Prop :=
  (∀ (r : RefId) (length : Nat) (s : State), PeriodEnds s r → soundInterval r (measuredLength s r length) = true →
    ∃ t, exec (.referencePeriod r length) s = .next t ∧ OnlyCounted s t r ∧ ClockAside s t ∧ NoticeDriven s t ∧
      (t.ref r).armed = true ∧ (t.ref r).length = measuredLength s r length ∧
      (if (s.ref r).state = .locked then (t.ref r).count = 0 ∧ (t.ref r).reached = false
        else if (s.ref r).count + 1 < lockPeriods r then
          (t.ref r).count = (s.ref r).count + 1 ∧ (t.ref r).reached = false
        else (t.ref r).count = (s.ref r).count ∧ (t.ref r).reached = true) ∧
      t.clock.selected = s.clock.selected ∧ t.clock.generator = s.clock.generator ∧ t.clock.running = s.clock.running ∧
      t.clock.pull = s.clock.pull ∧ t.clock.sinceMarker = s.clock.sinceMarker ∧
      t.clock.marker = (if r.val = 3 then none else s.clock.marker) ∧
      t.clock.missed = (if r.val = 3 then 0 else s.clock.missed) ∧
      (if r = s.clock.selected ∧ s.clock.generator = .following then
          if s.clock.pull ≤ 2 then t.clock.rate = some (measuredLength s r length) ∧ t.free = s.free
          else ∃ rate, t.clock.rate = some rate ∧
            let old := s.clock.rate.getD (measuredLength s r length)
            min old (measuredLength s r length) ≤ rate ∧ rate ≤ max old (measuredLength s r length)
        else t.clock.rate = s.clock.rate ∧ t.free = s.free)) ∧
  (∀ (r : RefId) (length : Nat) (s : State), PeriodEnds s r → soundInterval r (measuredLength s r length) = false →
    ∃ t, exec (.referencePeriod r length) s = .next t ∧ OnlyCounted s t r ∧ ClockAside s t ∧ NoticeDriven s t ∧
      t.free = s.free ∧ (t.ref r).armed = true ∧ FaultCounted s t r ∧
      t.clock = (if r.val = 3 then { s.clock with refs := t.clock.refs, marker := none, missed := 0 }
        else { s.clock with refs := t.clock.refs })) ∧
  (∀ (r : RefId) (length : Nat) (s : State), (s.ref r).state ≠ .off → (s.ref r).armed = false →
    (s.ref r).reached = false → (r.val = 3 → s.clock.marker ≠ none ∧ missingLeft s = 0) →
    ∃ t, exec (.referencePeriod r length) s = .next t ∧ (∀ k, k ≠ r → t.ref k = s.ref k) ∧
      t.ref r = { s.ref r with armed := true } ∧ ClockAside s t ∧ NoticeDriven s t ∧ t.free = s.free ∧
      t.clock = (if r.val = 3 then { s.clock with refs := t.clock.refs, marker := none, missed := 0 }
        else { s.clock with refs := t.clock.refs })) ∧
  (∀ (length : Nat) (s : State), (s.ref 3).state ≠ .off → s.clock.marker ≠ none → 0 < missingLeft s →
    ∃ u t, MissingTaken (missingLeft s) s u ∧ exec (.referencePeriod 3 length) s = .next t ∧
      exec (.referencePeriod 3 length) u = .next t ∧ (u.ref 3).armed = false ∧ missingLeft u = 0 ∧
      (t.ref 3).armed = true ∧ (t.ref 3).length = (s.ref 3).length ∧ t.clock.marker = none ∧ t.clock.missed = 0 ∧
      t.clock.rate = s.clock.rate ∧ t.free = s.free ∧ ClockAside s t) ∧
  (∀ (r : RefId) (s : State), r.val ≠ 0 → (s.ref r).state ≠ .off → (s.ref r).reached = false →
    (r.val = 3 → 0 < missingLeft s) →
    ∃ t, exec (.missingPeriod r) s = .next t ∧ OnlyCounted s t r ∧ ClockAside s t ∧ NoticeDriven s t ∧
      t.free = s.free ∧ (t.ref r).armed = false ∧ FaultCounted s t r ∧
      t.clock = (if r.val = 3 then { s.clock with refs := t.clock.refs, missed := s.clock.missed + 1 }
        else { s.clock with refs := t.clock.refs })) ∧
  (∀ s : State, exec (.missingPeriod 0) s = .next s ∧ (missingLeft s = 0 → exec (.missingPeriod 3) s = .next s)) ∧
  ∀ (r : RefId) (length : Nat) (s : State), (s.ref r).state = .off →
    exec (.referencePeriod r length) s = .next s ∧ exec (.missingPeriod r) s = .next s

/-- A due lock makes the reference LOCKED with count 0: INT's first, while it is selected, starts the generator FOLLOWING without a
flag; the selected reference's takes a running generator out of HOLDOVER with the flag, with 4,800 frames to reach its rate (R170,
log 10); another's changes only its record. A due loss makes it ACQUIRING with count 0, and the selected one's puts a FOLLOWING
generator in HOLDOVER at its rate with the flag (R168, R169, R148). A lock or loss that is not due changes nothing (log 3). -/
def Obligations.LockAndLossMoveTheGenerator : Prop :=
  (∀ (r : RefId) (s : State), s.lockDue r = true → (s.clock.running = false → s.clock.selected.val = 0) →
    ∃ t, exec (.referenceLock r) s = .next t ∧ ClockAside s t ∧ t.free = s.free ∧ NoticeLinesFollow t ∧
      (∀ k, k ≠ r → t.ref k = s.ref k) ∧ t.ref r = { s.ref r with state := .locked, count := 0, reached := false } ∧
      t.clock.selected = s.clock.selected ∧ t.clock.marker = s.clock.marker ∧ t.clock.sinceMarker = s.clock.sinceMarker ∧
      t.clock.missed = s.clock.missed ∧
      t.notice = { s.notice with refChange := t.notice.refChange, line := t.notice.line } ∧
      if r.val = 0 ∧ s.clock.running = false then
        t.clock.running = true ∧ t.clock.generator = .following ∧ t.clock.rate = some (s.ref r).length ∧
        t.clock.pull = 0 ∧ t.notice.refChange = s.notice.refChange
      else if r = s.clock.selected ∧ s.clock.generator = .holdover ∧ s.clock.running = true then
        t.clock.running = true ∧ t.clock.generator = .following ∧ t.clock.rate = s.clock.rate ∧ t.clock.pull = 4800 ∧
        t.notice.refChange = true
      else t.clock = { s.clock with refs := t.clock.refs } ∧ t.notice.refChange = s.notice.refChange) ∧
  (∀ (r : RefId) (s : State), s.lossDue r = true →
    ∃ t, exec (.referenceLoss r) s = .next t ∧ ClockAside s t ∧ t.free = s.free ∧ NoticeLinesFollow t ∧
      (∀ k, k ≠ r → t.ref k = s.ref k) ∧ t.ref r = { s.ref r with state := .acquiring, count := 0, reached := false } ∧
      t.notice = { s.notice with refChange := t.notice.refChange, line := t.notice.line } ∧
      if r = s.clock.selected ∧ s.clock.generator = .following then
        t.clock = { s.clock with refs := t.clock.refs, generator := .holdover, pull := 0 } ∧
        t.notice.refChange = true
      else t.clock = { s.clock with refs := t.clock.refs } ∧ t.notice.refChange = s.notice.refChange) ∧
  (∀ (r : RefId) (s : State), s.lockDue r = false → exec (.referenceLock r) s = .next s) ∧
  ∀ (r : RefId) (s : State), s.lossDue r = false → exec (.referenceLoss r) s = .next s

/-! ## Line signalling -/

/-- A frame's signalling words step the debounce of both conditions of every line (R52) by the bits of R190, and the link A0 word's
marker is timed unless its 24 bits are zero (R165, R190; log 9), after what the markers before it have left due and nothing has taken:
an LNK period, or the missing periods of a gap (R167, log 4); nothing happens while no frames are produced (R54). Stated
where no debounced change is due (log 4). -/
def Obligations.SignallingWordStepsTheDebounce : Prop :=
  (∀ (rx : LineFrame) (s : State), s.clock.running = true → NoSignalDue s →
    ∃ t u, exec (.signallingWord rx) s = .next t ∧
      LinkPeriodsTaken s u ∧
      t.clock = markerTimed u.clock (signallingOf (tget rx 0)) ∧ t.free = u.free ∧ t.lineTable.busOwner = s.lineTable.busOwner ∧
      (∀ l : Line,
        let word := signallingOf (tget rx ⟨l.val / 8, by omega⟩)
        t.line l = { s.line l with
          connCount := if word.getLsbD (l.val % 8) = (s.line l).connected then 0 else (s.line l).connCount + 1
          attnCount := if word.getLsbD (l.val % 8 + 8) = (s.line l).attnRaised then 0 else (s.line l).attnCount + 1 }) ∧
      NoticeDriven u t ∧ t.mix = s.mix ∧ t.cue = s.cue ∧ t.players = s.players ∧ t.meter = s.meter ∧
      t.ports = s.ports ∧ t.pending = s.pending) ∧
  ∀ (rx : LineFrame) (s : State), s.clock.running = false → exec (.signallingWord rx) s = .next s

/-- The four debounced events, where their count has reached 384: Connect and Disconnect set the connected field, Disconnect with
DROPPED to an owner; Attention raised sets the latch and the latch view; Attention dropped leaves the latch. A player that awaits
the condition goes on, for the latch only when it changes (R53, R55 to R58, R135). An event that is not due changes nothing
(log 3). -/
def Obligations.DebouncedEventsAreTaken : Prop :=
  (∀ (l : Line) (s : State), 384 ≤ (s.line l).connCount → (s.line l).connected = false →
    ∃ t, exec (.connect l) s = .next t ∧ OnlyLine s t l ∧
      t.line l = { s.line l with connected := true, connCount := 0 } ∧ AwaitingTold s t l .connected ∧
      NoticeDriven s t ∧ StepAside s t ∧ t.mix = s.mix) ∧
  (∀ (l : Line) (s : State), 384 ≤ (s.line l).connCount → (s.line l).connected = true →
    ∃ t, exec (.disconnect l) s = .next t ∧ OnlyLine s t l ∧
      t.line l = { s.line l with connected := false, connCount := 0 } ∧ AwaitingTold s t l .disconnected ∧
      EventsAdded s t (fun q k e => e == .dropped && k == l && (s.line l).owner == some q) ∧
      t.notice = { s.notice with events := t.notice.events, line := t.notice.line } ∧ NoticeLinesFollow t ∧
      StepAside s t ∧ t.mix = s.mix) ∧
  (∀ (l : Line) (s : State), 384 ≤ (s.line l).attnCount → (s.line l).attnRaised = false →
    ∃ t, exec (.attentionRaised l) s = .next t ∧ OnlyLine s t l ∧
      t.line l = { s.line l with attnRaised := true, attnCount := 0, attention := true } ∧
      (∀ k, tget t.notice.latchView k = if k = l then true else tget s.notice.latchView k) ∧
      t.notice = { s.notice with latchView := t.notice.latchView, line := t.notice.line } ∧ NoticeLinesFollow t ∧
      (if (s.line l).attention then t.players = s.players else AwaitingTold s t l .attentionLatched) ∧
      StepAside s t ∧ t.mix = s.mix) ∧
  (∀ (l : Line) (s : State), 384 ≤ (s.line l).attnCount → (s.line l).attnRaised = true →
    ∃ t, exec (.attentionDropped l) s = .next t ∧ OnlyLine s t l ∧
      t.line l = { s.line l with attnRaised := false, attnCount := 0 } ∧ t.players = s.players ∧
      NoticeDriven s t ∧ StepAside s t ∧ t.mix = s.mix) ∧
  (∀ (l : Line) (s : State), (s.line l).connCount < 384 →
    exec (.connect l) s = .next s ∧ exec (.disconnect l) s = .next s) ∧
  ∀ (l : Line) (s : State), (s.line l).attnCount < 384 →
    exec (.attentionRaised l) s = .next s ∧ exec (.attentionDropped l) s = .next s

/-! ## The frame event -/

/-- A frame event steps every ramped coefficient at most 128 toward its target, never past it (R32), and the tone phase by one modulo
48 (R24); the generator keeps its rate, with one frame less to reach a new reference's (R169, R170; log 5, log 10); what no part of R9
touches stays. While no frames are produced there is none (R8). -/
def Obligations.FrameEventStepsRampsAndTone : Prop :=
  (∀ (rx : InputFrame) (s : State), s.clock.running = true →
    ∃ t, exec (.frameEvent rx) s = .next t ∧
      (∀ c b, (tget (tget t.mix.cells c) b).current =
        stepped (tget (tget s.mix.cells c) b).current (tget (tget t.mix.cells c) b).target) ∧
      (∀ l, (tget t.mix.trim l).current = stepped (tget s.mix.trim l).current (tget t.mix.trim l).target ∧
        (tget t.mix.talkLevel l).current = stepped (tget s.mix.talkLevel l).current (tget s.mix.talkLevel l).target ∧
        (tget t.mix.talkLevel l).target = (tget s.mix.talkLevel l).target) ∧
      t.mix.parkGain = ⟨s.mix.parkGain.target, stepped s.mix.parkGain.current s.mix.parkGain.target⟩ ∧
      t.mix.tonePhase = (s.mix.tonePhase + 1) % 48 ∧ t.mix.trimDuck = s.mix.trimDuck ∧ t.mix.lastTalk = s.mix.lastTalk ∧
      t.mix.parkSource = s.mix.parkSource ∧
      ((∀ p, tget s.mix.staging p = none) →
        (∀ c b, (tget (tget t.mix.cells c) b).target = (tget (tget s.mix.cells c) b).target) ∧
        t.mix.storedTrim = s.mix.storedTrim ∧ (∀ l, (tget t.mix.trim l).target = (tget s.mix.trim l).target) ∧
        t.mix.staging = s.mix.staging ∧ ∀ l, t.line l = { s.line l with waiters := (t.line l).waiters }) ∧
      t.lineTable.busOwner = s.lineTable.busOwner ∧ t.cue.mem = s.cue.mem ∧ t.cue.valid = s.cue.valid ∧
      t.clock = { s.clock with pull := s.clock.pull - 1 } ∧ t.ports.freeze = s.ports.freeze ∧
      t.notice = { s.notice with unreadView := t.notice.unreadView, line := t.notice.line } ∧ NoticeLinesFollow t ∧
      t.free = s.free ∧ t.pending = s.pending) ∧
  ∀ (rx : InputFrame) (s : State), s.clock.running = false → exec (.frameEvent rx) s = .next s

/-- The 32 outputs of a frame event, from the currents after its ramps and the line fields after its groups: each bus the saturated
rescaled sum of its 40 products; a line's return 0 if it is not connected, the tone sample on tone, else the sum of the trimmed
program term and the talk term, where a PLACED line's program term is the sum of the OTHER contributors' products on its bus
(R11, R14 to R20, R22, R23, R25, R26). A link frame's channels are its first 192 bit periods and its signalling word the next 24, most
significant bit first; an output link carries its eight samples so, with zeros after them (R190), and nothing while no frames are
produced (R8). -/
def Obligations.FrameEventOutputs : Prop :=
  (∀ (rx : InputFrame) (s : State), s.clock.running = true →
    ∃ t, exec (.frameEvent rx) s = .next t ∧
      ∀ i, tget t.mix.out i = saturated (outputOf t rx s.mix.tonePhase i)) ∧
  (∀ (f : LinkFrame) (n : Fin 8) (k : Nat), k < 24 →
    (channelOf f n).getMsbD k = f.getMsbD (24 * n.val + k) ∧ (signallingOf f).getMsbD k = f.getMsbD (192 + k)) ∧
  (∀ (link : Fin 4) (s : State), s.clock.running = true → ∃ f, s.outputFrame link = some f ∧
    (∀ (n : Fin 8) (k : Nat), k < 24 →
      f.getMsbD (24 * n.val + k) = (BitVec.ofInt 24 (tget s.mix.out ⟨8 * link.val + n.val, by omega⟩)).getMsbD k) ∧
    ∀ k, 192 ≤ k → f.getMsbD k = false) ∧
  ∀ (link : Fin 4) (s : State), s.clock.running = false → s.outputFrame link = none

/-- Part 1 of a frame event in which nothing is overdue, with any number of groups pending, none included: every group is applied
whole and removed; each item holds what the groups' last action on it writes, the groups taken in port order (log 14; R39 rules out
that two write one item), and the trim target follows; each group's player stands after its group (R38, R138); every other player's
timer, every claim wait and every chunk timer goes down by one (R3, R79, R119, R134; that a frame's event counts them is log 5, that
nothing is overdue log 4). The snapshot timer is another statement's, the generator's frames are a third's. -/
def Obligations.FrameEventAppliesGroupsAndTimers : Prop :=
  ∀ (rx : InputFrame) (s : State), s.clock.running = true → NothingOverdue s →
    let g : List Staged := (List.finRange 4).flatMap fun p => (tget s.mix.staging p).getD []
    ∃ t, exec (.frameEvent rx) s = .next t ∧
      (∀ c b, (tget (tget t.mix.cells c) b).target =
        (lastWrite g (cellWrite c b)).getD (tget (tget s.mix.cells c) b).target) ∧
      (∀ l, tget t.mix.storedTrim l = (lastWrite g (trimWrite l)).getD (tget s.mix.storedTrim l) ∧
        (tget t.mix.trim l).target = (match lastWrite g (trimWrite l) with
          | some v => v * tget s.mix.trimDuck l / 32768
          | none => (tget s.mix.trim l).target)) ∧
      (∀ l, t.line l = { s.line l with
          status := (match lastWrite g (busWrite l) with
            | some (some _) => .placed
            | some none => .held
            | none => (s.line l).status)
          bus := (lastWrite g (busWrite l)).getD (s.line l).bus
          hold := (lastWrite g (holdWrite l)).getD (s.line l).hold
          tone := (lastWrite g (toneWrite l)).getD (s.line l).tone
          waiters := (t.line l).waiters } ∧
        ∀ q, tget (t.line l).waiters q = (tget (s.line l).waiters q).map frameLess) ∧
      (∀ q, tget t.mix.staging q = none) ∧
      (∀ q, t.player q =
        match tget s.mix.staging q with
        | some group => { s.player q with state := .stepping, addr := (s.player q).addr + group.length + 1 }
        | none => { s.player q with state := playerFrameLess (s.player q).state }) ∧
      ∀ q, t.loader q = { s.loader q with timer := (s.loader q).timer.map fun n => n - 1 }

/-- No line's return depends on that line's own receive audio (R17): two frames whose samples differ only on a line's own channel give
that line the same return, whatever its state, its cells and its groups, and whatever the links' other bit periods carry. -/
def Obligations.ReturnIgnoresOwnReceiveAudio : Prop :=
  ∀ (l : Line) (rx rx' : InputFrame) (s : State),
    (∀ (link : Fin 5) (channel : Fin 8), link.val * 8 + channel.val ≠ l.val →
      channelOf (tget rx link) channel = channelOf (tget rx' link) channel) →
    ∃ t t', exec (.frameEvent rx) s = .next t ∧ exec (.frameEvent rx') s = .next t' ∧
      tget t.mix.out ⟨l.val, by omega⟩ = tget t'.mix.out ⟨l.val, by omega⟩

/-! ## Refusals -/

/-- The refusal tables of LINE-STATUS (R72), SEIZE (R92) and CLEAR-MATRIX (R98), in their order, each refusal with nothing changed. -/
def Obligations.LineStatusSeizeAndClearRefusals : Prop :=
  ∀ (p : Port) (args : List Byte) (s : State), Ready s p →
    RefusedByFirst (.lineStatus p args) s p 0x24 args
      [(args.length != 1, .badArg, 0), (!inRange 1 24 (byteAt args 0), .badArg, 0)] ∧
    RefusedByFirst (.seize p args) s p 0x33 args
      [(args.length != 1, .badArg, 0), (s.ports.freeze, .frozen, 0), (p != 0, .notSenior, 255),
        (!inRange 1 24 (byteAt args 0), .badArg, 0)] ∧
    RefusedByFirst (.clearMatrix p args) s p 0x35 args
      [(args.length != 0, .badArg, 0), (s.ports.freeze, .frozen, 0), (p != 0, .notSenior, 255)]

/-- The refusals of LOAD-CHUNK (R124), in their order, and of WATCH (R153), each with nothing changed. -/
def Obligations.LoadChunkAndWatchRefusals : Prop :=
  ∀ (p : Port) (args : List Byte) (s : State), Ready s p →
    RefusedByFirst (.loadChunk p args) s p 0x51 args
      [(args.length == 0 || decide (64 < args.length) || args.length % 8 != 0, .badArg, 0),
        (!(s.loader p).loading, .notLoading, 0),
        (decide ((s.loader p).declared < (s.loader p).received + args.length / 8), .overrun, (s.loader p).received)] ∧
    RefusedByFirst (.watch p args) s p 0x60 args [(args.length != 3, .badArg, 0)]

/-- The refusal tables of SET-CELL (R43), PARK (R46), PLACE (R64), TRIM (R66), TONE (R68) and ACK-ATTN (R70), in their order, each
refusal with nothing changed. -/
def Obligations.MatrixAndLineTaskRefusals : Prop :=
  ∀ (p : Port) (args : List Byte) (s : State), Ready s p →
    let a := byteAt args 0
    let b := byteAt args 1
    RefusedByFirst (.setCell p args) s p 0x10 args
      [(args.length != 4, .badArg, 0), (s.ports.freeze, .frozen, 0), (!inRange 1 40 a, .badArg, 0),
        (!inRange 1 8 b, .badArg, 0), (ownerOfBus s b != some p, .notOwner, portDetail (ownerOfBus s b)),
        (inRange 1 24 a && ownerOfLine s a != some p, .notOwner, portDetail (ownerOfLine s a))] ∧
    RefusedByFirst (.park p args) s p 0x11 args
      [(args.length != 3, .badArg, 0), (s.ports.freeze, .frozen, 0), (p != 0, .notSenior, 255),
        (!inRange 1 16 a, .badArg, 0)] ∧
    RefusedByFirst (.place p args) s p 0x20 args
      [(args.length != 3, .badArg, 0), (s.ports.freeze, .frozen, 0), (!inRange 1 24 a, .badArg, 0),
        (!inRange 0 8 b, .badArg, 0), (!inRange 0 16 (byteAt args 2), .badArg, 0),
        (ownerOfLine s a != some p, .notOwner, portDetail (ownerOfLine s a)),
        (inRange 1 8 b && ownerOfBus s b != some p, .notOwner, portDetail (ownerOfBus s b))] ∧
    RefusedByFirst (.trim p args) s p 0x21 args
      [(args.length != 3, .badArg, 0), (s.ports.freeze, .frozen, 0), (!inRange 1 24 a, .badArg, 0),
        (ownerOfLine s a != some p, .notOwner, portDetail (ownerOfLine s a))] ∧
    RefusedByFirst (.tone p args) s p 0x22 args
      [(args.length != 2, .badArg, 0), (s.ports.freeze, .frozen, 0), (!inRange 1 24 a, .badArg, 0),
        (!inRange 0 1 b, .badArg, 0), (ownerOfLine s a != some p, .notOwner, portDetail (ownerOfLine s a))] ∧
    RefusedByFirst (.ackAttn p args) s p 0x23 args
      [(args.length != 1, .badArg, 0), (!inRange 1 24 a, .badArg, 0),
        ((ownerOfLine s a).any (fun q => q != p), .notOwner, portDetail (ownerOfLine s a))]

/-- The refusal tables of CLAIM (R86), RELEASE (R88), HAND (R90), ASSIGN (R95), TALK (R108) and UNTALK (R111), in their order, each
refusal with nothing changed. -/
def Obligations.OwnershipAndTalkTaskRefusals : Prop :=
  ∀ (p : Port) (args : List Byte) (s : State), Ready s p →
    let a := byteAt args 0
    let b := byteAt args 1
    RefusedByFirst (.claim p args) s p 0x30 args
      [(args.length != 3, .badArg, 0), (s.ports.freeze, .frozen, 0), (!inRange 1 24 a, .badArg, 0),
        ((ownerOfLine s a).any (fun q => q != p) && wordAt args 1 == 0, .busy, portDetail (ownerOfLine s a))] ∧
    RefusedByFirst (.release p args) s p 0x31 args
      [(args.length != 1, .badArg, 0), (s.ports.freeze, .frozen, 0), (!inRange 1 24 a, .badArg, 0),
        (ownerOfLine s a != some p, .notOwner, portDetail (ownerOfLine s a))] ∧
    RefusedByFirst (.hand p args) s p 0x32 args
      [(args.length != 2, .badArg, 0), (s.ports.freeze, .frozen, 0), (!inRange 1 24 a, .badArg, 0),
        (!inRange 0 3 b, .badArg, 0), (ownerOfLine s a != some p, .notOwner, portDetail (ownerOfLine s a)),
        (b == p.val, .badArg, 0)] ∧
    RefusedByFirst (.assign p args) s p 0x34 args
      [(args.length != 2, .badArg, 0), (s.ports.freeze, .frozen, 0), (p != 0, .notSenior, 255),
        (!inRange 1 8 a, .badArg, 0), (!inRange 0 3 b, .badArg, 0)] ∧
    RefusedByFirst (.talk p args) s p 0x40 args
      [(args.length != 6, .badArg, 0), (!inRange 1 24 a, .badArg, 0), (!inRange 1 16 b, .badArg, 0),
        (ownerOfLine s a == none, .notOwner, 255),
        (ownerOfLine s a != some p && p != 0, .notOwner, portDetail (ownerOfLine s a)),
        ((talkerOfLine s a).any (fun q => decide (q < p)), .busy, portDetail (talkerOfLine s a))] ∧
    RefusedByFirst (.untalk p args) s p 0x41 args
      [(args.length != 1, .badArg, 0), (!inRange 1 24 a, .badArg, 0),
        (talkerOfLine s a != some p, .notHolder, portDetail (talkerOfLine s a))]

/-- The refusal tables of LOAD-BEGIN (R122), LOAD-END (R125), RUN (R142), SNAP (R161), READ-SNAP (R164), REF-ENABLE (R172) and
REF-SELECT (R174), in their order, each refusal with nothing changed. -/
def Obligations.LoadMeterAndClockTaskRefusals : Prop :=
  ∀ (p : Port) (args : List Byte) (s : State), Ready s p →
    let a := byteAt args 0
    let b := byteAt args 1
    let holder := s.meter.buffer.map fun k => k.holder
    RefusedByFirst (.loadBegin p args) s p 0x50 args
      [(args.length != 5, .badArg, 0), (wordAt args 1 == 0, .badArg, 0), (decide (256 < a + wordAt args 1), .badArg, 0),
        ((s.player p).state != .idle, .busy, (s.player p).addr)] ∧
    RefusedByFirst (.loadEnd p args) s p 0x52 args
      [(args.length != 0, .badArg, 0), (!(s.loader p).loading, .notLoading, 0)] ∧
    RefusedByFirst (.run p args) s p 0x58 args
      [(args.length != 2, .badArg, 0), (!inRange 0 255 (wordAt args 0), .badArg, 0),
        ((s.player p).state != .idle, .busy, (s.player p).addr), ((s.loader p).loading, .busy, (s.loader p).received)] ∧
    RefusedByFirst (.snap p args) s p 0x68 args
      [(args.length != 0, .badArg, 0), (holder.any (fun q => q != p), .locked, portDetail holder)] ∧
    RefusedByFirst (.readSnap p args) s p 0x69 args
      [(args.length != 3, .badArg, 0), (holder == none, .noData, 255), (holder != some p, .notHolder, portDetail holder),
        (!inRange 0 1 (byteAt args 2), .badArg, 0), (decide (32 < a + b), .badArg, 0)] ∧
    RefusedByFirst (.refEnable p args) s p 0x70 args
      [(args.length != 2, .badArg, 0), (p != 0, .notSenior, 255), (!inRange 0 3 a, .badArg, 0), (!inRange 0 1 b, .badArg, 0),
        (a == 0 && b == 0, .badArg, 0), (b == 0 && a == s.clock.selected.val, .busy, s.clock.selected.val)] ∧
    RefusedByFirst (.refSelect p args) s p 0x71 args
      [(args.length != 1, .badArg, 0), (p != 0, .notSenior, 255), (!inRange 0 3 a, .badArg, 0),
        ((refArg a).any (fun r => (s.ref r).state != .locked), .noLock,
          match (refArg a).map (fun r => (s.ref r).state) with
          | some .acquiring => 1
          | _ => 0)]

/-! ## Laws that every step keeps -/

/-- The ownership laws of R35, R39, R49, R78 and R99 are kept by every step, from every state in which a player is PENDING exactly while
its group is staged (the law of O58). -/
def Obligations.OwnershipLawIsKept : Prop :=
  ∀ s t : State, OwnershipLaw s → SequenceLaw s → step s = .next t → OwnershipLaw t

/-- The ranges of the coefficient bank, the trim target's definition (R28, R30, R32, R24) and the writes that follow a talk slot
(R100) are kept by every step. -/
def Obligations.BankAndTalkLawsAreKept : Prop :=
  ∀ s t : State, BankLaw s → TalkWritesLaw s → step s = .next t → BankLaw t ∧ TalkWritesLaw t

/-- Slots agree with the waits and captures they stand for, and a held port is empty and silent (R178, R180, R78, R159, R184): kept
by every step. -/
def Obligations.SlotLawIsKept : Prop :=
  ∀ s t : State, SlotLaw s → step s = .next t → SlotLaw t

/-- The Notice Unit's views never differ from the latches and unread marks, and every notice line follows its conditions (R146,
R149): kept by every step. -/
def Obligations.NoticeLawIsKept : Prop :=
  ∀ s t : State, NoticeLaw s → step s = .next t → NoticeLaw t

/-- The reference records stay in their ranges, INT once LOCKED has no faulty period, the selected reference is never OFF, and the
generator is FOLLOWING only while the selected reference is LOCKED (R166, R167, R169): kept by every step. The clauses on due marks
rest on log 4, those on open intervals on log 8, those on LNK's markers on log 9, those on the pull on log 10. -/
def Obligations.ClockLawIsKept : Prop :=
  ∀ s t : State, ClockLaw s → step s = .next t → ClockLaw t

/-- The bounds of loaders and players, a player IDLE while its loader is LOADING, a player PENDING exactly while its group is staged
(R116 to R118, R128, R36, R131), a player PAUSED only before a valid step that FREEZE holds, and only under FREEZE or where its
assertion follows a release in the queue (R139, R183; log 15), and the form and numbering of the Cue Store's memory (log 20):
kept by every step. -/
def Obligations.SequenceAndMemoryLawsAreKept : Prop :=
  ∀ s t : State, SequenceLaw s → MemoryLaw s → step s = .next t → SequenceLaw t ∧ MemoryLaw t

/-- Every transmitted sample lies in the sample range (R26), meters and snapshot entries in theirs (R156, R158), and no debounce count
passes 384 (R52, R53): kept by every step. -/
def Obligations.OutputAndDebounceLawsAreKept : Prop :=
  ∀ s t : State, OutputLaw s → DebounceLaw s → step s = .next t → OutputLaw t ∧ DebounceLaw t

/-- Every law holds after power-on reset. -/
def Obligations.LawsHoldAtReset : Prop :=
  OwnershipLaw State.reset ∧ BankLaw State.reset ∧ TalkWritesLaw State.reset ∧ SlotLaw State.reset ∧ NoticeLaw State.reset ∧
  ClockLaw State.reset ∧ SequenceLaw State.reset ∧ MemoryLaw State.reset ∧ OutputLaw State.reset ∧ DebounceLaw State.reset
end

