-- ==== Sys2Proof/Laws/State.lean ====
section
/-! SUPPORT. One lemma for each block update and each field of State: true by rfl, so that no proof unfolds a record update. -/

namespace Sys2Proof.Machine

open Sys2Proof

@[simp] theorem State.withLineTable_lineTable (s : State) (x : LineTable) : (s.withLineTable x).lineTable = x := rfl
@[simp] theorem State.withLineTable_mix (s : State) (x : LineTable) : (s.withLineTable x).mix = s.mix := rfl
@[simp] theorem State.withLineTable_cue (s : State) (x : LineTable) : (s.withLineTable x).cue = s.cue := rfl
@[simp] theorem State.withLineTable_players (s : State) (x : LineTable) : (s.withLineTable x).players = s.players := rfl
@[simp] theorem State.withLineTable_notice (s : State) (x : LineTable) : (s.withLineTable x).notice = s.notice := rfl
@[simp] theorem State.withLineTable_meter (s : State) (x : LineTable) : (s.withLineTable x).meter = s.meter := rfl
@[simp] theorem State.withLineTable_clock (s : State) (x : LineTable) : (s.withLineTable x).clock = s.clock := rfl
@[simp] theorem State.withLineTable_ports (s : State) (x : LineTable) : (s.withLineTable x).ports = s.ports := rfl
@[simp] theorem State.withLineTable_free (s : State) (x : LineTable) : (s.withLineTable x).free = s.free := rfl
@[simp] theorem State.withLineTable_pending (s : State) (x : LineTable) : (s.withLineTable x).pending = s.pending := rfl
@[simp] theorem State.withLineTable_self (s : State) : s.withLineTable s.lineTable = s := rfl
@[simp] theorem State.withLineTable_withLineTable (s : State) (x y : LineTable) : (s.withLineTable x).withLineTable y = s.withLineTable y := rfl

@[simp] theorem State.withMix_lineTable (s : State) (x : MixEngine) : (s.withMix x).lineTable = s.lineTable := rfl
@[simp] theorem State.withMix_mix (s : State) (x : MixEngine) : (s.withMix x).mix = x := rfl
@[simp] theorem State.withMix_cue (s : State) (x : MixEngine) : (s.withMix x).cue = s.cue := rfl
@[simp] theorem State.withMix_players (s : State) (x : MixEngine) : (s.withMix x).players = s.players := rfl
@[simp] theorem State.withMix_notice (s : State) (x : MixEngine) : (s.withMix x).notice = s.notice := rfl
@[simp] theorem State.withMix_meter (s : State) (x : MixEngine) : (s.withMix x).meter = s.meter := rfl
@[simp] theorem State.withMix_clock (s : State) (x : MixEngine) : (s.withMix x).clock = s.clock := rfl
@[simp] theorem State.withMix_ports (s : State) (x : MixEngine) : (s.withMix x).ports = s.ports := rfl
@[simp] theorem State.withMix_free (s : State) (x : MixEngine) : (s.withMix x).free = s.free := rfl
@[simp] theorem State.withMix_pending (s : State) (x : MixEngine) : (s.withMix x).pending = s.pending := rfl
@[simp] theorem State.withMix_self (s : State) : s.withMix s.mix = s := rfl
@[simp] theorem State.withMix_withMix (s : State) (x y : MixEngine) : (s.withMix x).withMix y = s.withMix y := rfl

@[simp] theorem State.withCue_lineTable (s : State) (x : CueStore) : (s.withCue x).lineTable = s.lineTable := rfl
@[simp] theorem State.withCue_mix (s : State) (x : CueStore) : (s.withCue x).mix = s.mix := rfl
@[simp] theorem State.withCue_cue (s : State) (x : CueStore) : (s.withCue x).cue = x := rfl
@[simp] theorem State.withCue_players (s : State) (x : CueStore) : (s.withCue x).players = s.players := rfl
@[simp] theorem State.withCue_notice (s : State) (x : CueStore) : (s.withCue x).notice = s.notice := rfl
@[simp] theorem State.withCue_meter (s : State) (x : CueStore) : (s.withCue x).meter = s.meter := rfl
@[simp] theorem State.withCue_clock (s : State) (x : CueStore) : (s.withCue x).clock = s.clock := rfl
@[simp] theorem State.withCue_ports (s : State) (x : CueStore) : (s.withCue x).ports = s.ports := rfl
@[simp] theorem State.withCue_free (s : State) (x : CueStore) : (s.withCue x).free = s.free := rfl
@[simp] theorem State.withCue_pending (s : State) (x : CueStore) : (s.withCue x).pending = s.pending := rfl
@[simp] theorem State.withCue_self (s : State) : s.withCue s.cue = s := rfl
@[simp] theorem State.withCue_withCue (s : State) (x y : CueStore) : (s.withCue x).withCue y = s.withCue y := rfl

@[simp] theorem State.withPlayers_lineTable (s : State) (x : Table 4 Player) : (s.withPlayers x).lineTable = s.lineTable := rfl
@[simp] theorem State.withPlayers_mix (s : State) (x : Table 4 Player) : (s.withPlayers x).mix = s.mix := rfl
@[simp] theorem State.withPlayers_cue (s : State) (x : Table 4 Player) : (s.withPlayers x).cue = s.cue := rfl
@[simp] theorem State.withPlayers_players (s : State) (x : Table 4 Player) : (s.withPlayers x).players = x := rfl
@[simp] theorem State.withPlayers_notice (s : State) (x : Table 4 Player) : (s.withPlayers x).notice = s.notice := rfl
@[simp] theorem State.withPlayers_meter (s : State) (x : Table 4 Player) : (s.withPlayers x).meter = s.meter := rfl
@[simp] theorem State.withPlayers_clock (s : State) (x : Table 4 Player) : (s.withPlayers x).clock = s.clock := rfl
@[simp] theorem State.withPlayers_ports (s : State) (x : Table 4 Player) : (s.withPlayers x).ports = s.ports := rfl
@[simp] theorem State.withPlayers_free (s : State) (x : Table 4 Player) : (s.withPlayers x).free = s.free := rfl
@[simp] theorem State.withPlayers_pending (s : State) (x : Table 4 Player) : (s.withPlayers x).pending = s.pending := rfl
@[simp] theorem State.withPlayers_self (s : State) : s.withPlayers s.players = s := rfl
@[simp] theorem State.withPlayers_withPlayers (s : State) (x y : Table 4 Player) : (s.withPlayers x).withPlayers y = s.withPlayers y := rfl

@[simp] theorem State.withNotice_lineTable (s : State) (x : NoticeUnit) : (s.withNotice x).lineTable = s.lineTable := rfl
@[simp] theorem State.withNotice_mix (s : State) (x : NoticeUnit) : (s.withNotice x).mix = s.mix := rfl
@[simp] theorem State.withNotice_cue (s : State) (x : NoticeUnit) : (s.withNotice x).cue = s.cue := rfl
@[simp] theorem State.withNotice_players (s : State) (x : NoticeUnit) : (s.withNotice x).players = s.players := rfl
@[simp] theorem State.withNotice_notice (s : State) (x : NoticeUnit) : (s.withNotice x).notice = x := rfl
@[simp] theorem State.withNotice_meter (s : State) (x : NoticeUnit) : (s.withNotice x).meter = s.meter := rfl
@[simp] theorem State.withNotice_clock (s : State) (x : NoticeUnit) : (s.withNotice x).clock = s.clock := rfl
@[simp] theorem State.withNotice_ports (s : State) (x : NoticeUnit) : (s.withNotice x).ports = s.ports := rfl
@[simp] theorem State.withNotice_free (s : State) (x : NoticeUnit) : (s.withNotice x).free = s.free := rfl
@[simp] theorem State.withNotice_pending (s : State) (x : NoticeUnit) : (s.withNotice x).pending = s.pending := rfl
@[simp] theorem State.withNotice_self (s : State) : s.withNotice s.notice = s := rfl
@[simp] theorem State.withNotice_withNotice (s : State) (x y : NoticeUnit) : (s.withNotice x).withNotice y = s.withNotice y := rfl

@[simp] theorem State.withMeter_lineTable (s : State) (x : MeterUnit) : (s.withMeter x).lineTable = s.lineTable := rfl
@[simp] theorem State.withMeter_mix (s : State) (x : MeterUnit) : (s.withMeter x).mix = s.mix := rfl
@[simp] theorem State.withMeter_cue (s : State) (x : MeterUnit) : (s.withMeter x).cue = s.cue := rfl
@[simp] theorem State.withMeter_players (s : State) (x : MeterUnit) : (s.withMeter x).players = s.players := rfl
@[simp] theorem State.withMeter_notice (s : State) (x : MeterUnit) : (s.withMeter x).notice = s.notice := rfl
@[simp] theorem State.withMeter_meter (s : State) (x : MeterUnit) : (s.withMeter x).meter = x := rfl
@[simp] theorem State.withMeter_clock (s : State) (x : MeterUnit) : (s.withMeter x).clock = s.clock := rfl
@[simp] theorem State.withMeter_ports (s : State) (x : MeterUnit) : (s.withMeter x).ports = s.ports := rfl
@[simp] theorem State.withMeter_free (s : State) (x : MeterUnit) : (s.withMeter x).free = s.free := rfl
@[simp] theorem State.withMeter_pending (s : State) (x : MeterUnit) : (s.withMeter x).pending = s.pending := rfl
@[simp] theorem State.withMeter_self (s : State) : s.withMeter s.meter = s := rfl
@[simp] theorem State.withMeter_withMeter (s : State) (x y : MeterUnit) : (s.withMeter x).withMeter y = s.withMeter y := rfl

@[simp] theorem State.withClock_lineTable (s : State) (x : FrameClock) : (s.withClock x).lineTable = s.lineTable := rfl
@[simp] theorem State.withClock_mix (s : State) (x : FrameClock) : (s.withClock x).mix = s.mix := rfl
@[simp] theorem State.withClock_cue (s : State) (x : FrameClock) : (s.withClock x).cue = s.cue := rfl
@[simp] theorem State.withClock_players (s : State) (x : FrameClock) : (s.withClock x).players = s.players := rfl
@[simp] theorem State.withClock_notice (s : State) (x : FrameClock) : (s.withClock x).notice = s.notice := rfl
@[simp] theorem State.withClock_meter (s : State) (x : FrameClock) : (s.withClock x).meter = s.meter := rfl
@[simp] theorem State.withClock_clock (s : State) (x : FrameClock) : (s.withClock x).clock = x := rfl
@[simp] theorem State.withClock_ports (s : State) (x : FrameClock) : (s.withClock x).ports = s.ports := rfl
@[simp] theorem State.withClock_free (s : State) (x : FrameClock) : (s.withClock x).free = s.free := rfl
@[simp] theorem State.withClock_pending (s : State) (x : FrameClock) : (s.withClock x).pending = s.pending := rfl
@[simp] theorem State.withClock_self (s : State) : s.withClock s.clock = s := rfl
@[simp] theorem State.withClock_withClock (s : State) (x y : FrameClock) : (s.withClock x).withClock y = s.withClock y := rfl

@[simp] theorem State.withPorts_lineTable (s : State) (x : ControlPorts) : (s.withPorts x).lineTable = s.lineTable := rfl
@[simp] theorem State.withPorts_mix (s : State) (x : ControlPorts) : (s.withPorts x).mix = s.mix := rfl
@[simp] theorem State.withPorts_cue (s : State) (x : ControlPorts) : (s.withPorts x).cue = s.cue := rfl
@[simp] theorem State.withPorts_players (s : State) (x : ControlPorts) : (s.withPorts x).players = s.players := rfl
@[simp] theorem State.withPorts_notice (s : State) (x : ControlPorts) : (s.withPorts x).notice = s.notice := rfl
@[simp] theorem State.withPorts_meter (s : State) (x : ControlPorts) : (s.withPorts x).meter = s.meter := rfl
@[simp] theorem State.withPorts_clock (s : State) (x : ControlPorts) : (s.withPorts x).clock = s.clock := rfl
@[simp] theorem State.withPorts_ports (s : State) (x : ControlPorts) : (s.withPorts x).ports = x := rfl
@[simp] theorem State.withPorts_free (s : State) (x : ControlPorts) : (s.withPorts x).free = s.free := rfl
@[simp] theorem State.withPorts_pending (s : State) (x : ControlPorts) : (s.withPorts x).pending = s.pending := rfl
@[simp] theorem State.withPorts_self (s : State) : s.withPorts s.ports = s := rfl
@[simp] theorem State.withPorts_withPorts (s : State) (x y : ControlPorts) : (s.withPorts x).withPorts y = s.withPorts y := rfl

@[simp] theorem State.withFree_lineTable (s : State) (x : Nat) : (s.withFree x).lineTable = s.lineTable := rfl
@[simp] theorem State.withFree_mix (s : State) (x : Nat) : (s.withFree x).mix = s.mix := rfl
@[simp] theorem State.withFree_cue (s : State) (x : Nat) : (s.withFree x).cue = s.cue := rfl
@[simp] theorem State.withFree_players (s : State) (x : Nat) : (s.withFree x).players = s.players := rfl
@[simp] theorem State.withFree_notice (s : State) (x : Nat) : (s.withFree x).notice = s.notice := rfl
@[simp] theorem State.withFree_meter (s : State) (x : Nat) : (s.withFree x).meter = s.meter := rfl
@[simp] theorem State.withFree_clock (s : State) (x : Nat) : (s.withFree x).clock = s.clock := rfl
@[simp] theorem State.withFree_ports (s : State) (x : Nat) : (s.withFree x).ports = s.ports := rfl
@[simp] theorem State.withFree_free (s : State) (x : Nat) : (s.withFree x).free = x := rfl
@[simp] theorem State.withFree_pending (s : State) (x : Nat) : (s.withFree x).pending = s.pending := rfl
@[simp] theorem State.withFree_self (s : State) : s.withFree s.free = s := rfl
@[simp] theorem State.withFree_withFree (s : State) (x y : Nat) : (s.withFree x).withFree y = s.withFree y := rfl

@[simp] theorem State.withPending_lineTable (s : State) (x : List Instr) : (s.withPending x).lineTable = s.lineTable := rfl
@[simp] theorem State.withPending_mix (s : State) (x : List Instr) : (s.withPending x).mix = s.mix := rfl
@[simp] theorem State.withPending_cue (s : State) (x : List Instr) : (s.withPending x).cue = s.cue := rfl
@[simp] theorem State.withPending_players (s : State) (x : List Instr) : (s.withPending x).players = s.players := rfl
@[simp] theorem State.withPending_notice (s : State) (x : List Instr) : (s.withPending x).notice = s.notice := rfl
@[simp] theorem State.withPending_meter (s : State) (x : List Instr) : (s.withPending x).meter = s.meter := rfl
@[simp] theorem State.withPending_clock (s : State) (x : List Instr) : (s.withPending x).clock = s.clock := rfl
@[simp] theorem State.withPending_ports (s : State) (x : List Instr) : (s.withPending x).ports = s.ports := rfl
@[simp] theorem State.withPending_free (s : State) (x : List Instr) : (s.withPending x).free = s.free := rfl
@[simp] theorem State.withPending_pending (s : State) (x : List Instr) : (s.withPending x).pending = x := rfl
@[simp] theorem State.withPending_self (s : State) : s.withPending s.pending = s := rfl
@[simp] theorem State.withPending_withPending (s : State) (x y : List Instr) : (s.withPending x).withPending y = s.withPending y := rfl

/-- States with equal fields are equal. -/
theorem State.ext_fields {s t : State} (h1 : s.lineTable = t.lineTable) (h2 : s.mix = t.mix) (h3 : s.cue = t.cue)
    (h4 : s.players = t.players) (h5 : s.notice = t.notice) (h6 : s.meter = t.meter) (h7 : s.clock = t.clock)
    (h8 : s.ports = t.ports) (h9 : s.free = t.free) (h10 : s.pending = t.pending) : s = t := by
  cases s; cases t; simp_all

end Sys2Proof.Machine
end

