-- ==== Sys2Proof/Laws/Ops.lean ====
section
/-! SUPPORT. The frame of each shared operation: one lemma that names every block the operation leaves as it stands, so that no
later proof unfolds an operation to read a block it does not touch. -/

namespace Sys2Proof.Machine

open Sys2Proof

/-- What every round of a fold leaves as it stands, the fold leaves as it stands. -/
theorem foldl_keeps {β γ : Type} (f : State → β → State) (g : State → γ) (h : ∀ s b, g (f s b) = g s) (l : List β)
    (s : State) : g (l.foldl f s) = g s := by
  induction l generalizing s with
  | nil => rfl
  | cons b rest ih => rw [List.foldl_cons, ih, h]

/-! ## Frames: records and table entries -/

@[simp] theorem State.mapLines_frame (s : State) (f : Line → LineRec → LineRec) :
    (s.mapLines f).mix = s.mix ∧ (s.mapLines f).cue = s.cue ∧ (s.mapLines f).players = s.players ∧
    (s.mapLines f).notice = s.notice ∧ (s.mapLines f).meter = s.meter ∧ (s.mapLines f).clock = s.clock ∧
    (s.mapLines f).ports = s.ports ∧ (s.mapLines f).free = s.free ∧ (s.mapLines f).pending = s.pending := by
  simp [State.mapLines]

@[simp] theorem State.modLine_frame (s : State) (l : Line) (f : LineRec → LineRec) :
    (s.modLine l f).mix = s.mix ∧ (s.modLine l f).cue = s.cue ∧ (s.modLine l f).players = s.players ∧
    (s.modLine l f).notice = s.notice ∧ (s.modLine l f).meter = s.meter ∧ (s.modLine l f).clock = s.clock ∧
    (s.modLine l f).ports = s.ports ∧ (s.modLine l f).free = s.free ∧ (s.modLine l f).pending = s.pending := by
  simp [State.modLine]

@[simp] theorem State.modPort_frame (s : State) (p : Port) (f : CtrlPort → CtrlPort) :
    (s.modPort p f).lineTable = s.lineTable ∧ (s.modPort p f).mix = s.mix ∧ (s.modPort p f).cue = s.cue ∧
    (s.modPort p f).players = s.players ∧ (s.modPort p f).notice = s.notice ∧ (s.modPort p f).meter = s.meter ∧
    (s.modPort p f).clock = s.clock ∧ (s.modPort p f).free = s.free ∧ (s.modPort p f).pending = s.pending := by
  simp [State.modPort]

@[simp] theorem State.setPlayer_frame (s : State) (p : Port) (x : Player) :
    (s.setPlayer p x).lineTable = s.lineTable ∧ (s.setPlayer p x).mix = s.mix ∧ (s.setPlayer p x).cue = s.cue ∧
    (s.setPlayer p x).notice = s.notice ∧ (s.setPlayer p x).meter = s.meter ∧ (s.setPlayer p x).clock = s.clock ∧
    (s.setPlayer p x).ports = s.ports ∧ (s.setPlayer p x).free = s.free ∧ (s.setPlayer p x).pending = s.pending := by
  simp [State.setPlayer]

@[simp] theorem State.setLoader_frame (s : State) (p : Port) (x : Loader) :
    (s.setLoader p x).lineTable = s.lineTable ∧ (s.setLoader p x).mix = s.mix ∧
    (s.setLoader p x).players = s.players ∧ (s.setLoader p x).notice = s.notice ∧ (s.setLoader p x).meter = s.meter ∧
    (s.setLoader p x).clock = s.clock ∧ (s.setLoader p x).ports = s.ports ∧ (s.setLoader p x).free = s.free ∧
    (s.setLoader p x).pending = s.pending := by simp [State.setLoader]

@[simp] theorem State.setRef_frame (s : State) (r : RefId) (x : RefRec) :
    (s.setRef r x).lineTable = s.lineTable ∧ (s.setRef r x).mix = s.mix ∧ (s.setRef r x).cue = s.cue ∧
    (s.setRef r x).players = s.players ∧ (s.setRef r x).notice = s.notice ∧ (s.setRef r x).meter = s.meter ∧
    (s.setRef r x).ports = s.ports ∧ (s.setRef r x).free = s.free ∧ (s.setRef r x).pending = s.pending := by
  simp [State.setRef]

@[simp] theorem State.setAttention_frame (s : State) (l : Line) (v : Bool) :
    (s.setAttention l v).mix = s.mix ∧ (s.setAttention l v).cue = s.cue ∧ (s.setAttention l v).players = s.players ∧
    (s.setAttention l v).meter = s.meter ∧ (s.setAttention l v).clock = s.clock ∧
    (s.setAttention l v).ports = s.ports ∧ (s.setAttention l v).free = s.free ∧
    (s.setAttention l v).pending = s.pending := by simp [State.setAttention]

/-! ## Frames: events, results and notices -/

@[simp] theorem State.raise_frame (s : State) (q : Port) (l : Line) (k : EventKind) :
    (s.raise q l k).lineTable = s.lineTable ∧ (s.raise q l k).mix = s.mix ∧ (s.raise q l k).cue = s.cue ∧
    (s.raise q l k).players = s.players ∧ (s.raise q l k).meter = s.meter ∧ (s.raise q l k).clock = s.clock ∧
    (s.raise q l k).ports = s.ports ∧ (s.raise q l k).free = s.free ∧ (s.raise q l k).pending = s.pending := by
  simp [State.raise]

@[simp] theorem State.raiseTalkEnded_frame (s : State) (l : Line) (actor : Port) :
    (s.raiseTalkEnded l actor).lineTable = s.lineTable ∧ (s.raiseTalkEnded l actor).mix = s.mix ∧
    (s.raiseTalkEnded l actor).cue = s.cue ∧ (s.raiseTalkEnded l actor).players = s.players ∧
    (s.raiseTalkEnded l actor).meter = s.meter ∧ (s.raiseTalkEnded l actor).clock = s.clock ∧
    (s.raiseTalkEnded l actor).ports = s.ports ∧ (s.raiseTalkEnded l actor).free = s.free ∧
    (s.raiseTalkEnded l actor).pending = s.pending := by
  unfold State.raiseTalkEnded
  (repeat' split) <;> simp

@[simp] theorem State.complete_frame (s : State) (p : Port) (code : Byte) (args : List Byte) (r : Result) :
    (s.complete p code args r).lineTable = s.lineTable ∧ (s.complete p code args r).mix = s.mix ∧
    (s.complete p code args r).cue = s.cue ∧ (s.complete p code args r).players = s.players ∧
    (s.complete p code args r).meter = s.meter ∧ (s.complete p code args r).clock = s.clock ∧
    (s.complete p code args r).free = s.free ∧ (s.complete p code args r).pending = s.pending := by
  simp [State.complete]

@[simp] theorem State.goWorking_frame (s : State) (p : Port) (code : Byte) (args : List Byte) :
    (s.goWorking p code args).lineTable = s.lineTable ∧ (s.goWorking p code args).mix = s.mix ∧
    (s.goWorking p code args).cue = s.cue ∧ (s.goWorking p code args).players = s.players ∧
    (s.goWorking p code args).meter = s.meter ∧ (s.goWorking p code args).clock = s.clock ∧
    (s.goWorking p code args).free = s.free ∧ (s.goWorking p code args).pending = s.pending := by
  simp [State.goWorking]

@[simp] theorem State.deliver_frame (s : State) (p : Port) (r : Result) :
    (s.deliver p r).lineTable = s.lineTable ∧ (s.deliver p r).mix = s.mix ∧ (s.deliver p r).cue = s.cue ∧
    (s.deliver p r).players = s.players ∧ (s.deliver p r).meter = s.meter ∧ (s.deliver p r).clock = s.clock ∧
    (s.deliver p r).free = s.free ∧ (s.deliver p r).pending = s.pending := by
  unfold State.deliver
  split <;> simp

@[simp] theorem State.deliverAll_frame (s : State) (who : Port → Bool) (r : Port → Result) :
    (s.deliverAll who r).lineTable = s.lineTable ∧ (s.deliverAll who r).mix = s.mix ∧
    (s.deliverAll who r).cue = s.cue ∧ (s.deliverAll who r).players = s.players ∧
    (s.deliverAll who r).meter = s.meter ∧ (s.deliverAll who r).clock = s.clock ∧ (s.deliverAll who r).free = s.free ∧
    (s.deliverAll who r).pending = s.pending :=
  ⟨foldl_keeps _ State.lineTable (fun s p => by split <;> simp) _ s,
    foldl_keeps _ State.mix (fun s p => by split <;> simp) _ s,
    foldl_keeps _ State.cue (fun s p => by split <;> simp) _ s,
    foldl_keeps _ State.players (fun s p => by split <;> simp) _ s,
    foldl_keeps _ State.meter (fun s p => by split <;> simp) _ s,
    foldl_keeps _ State.clock (fun s p => by split <;> simp) _ s,
    foldl_keeps _ State.free (fun s p => by split <;> simp) _ s,
    foldl_keeps _ State.pending (fun s p => by split <;> simp) _ s⟩

@[simp] theorem State.driveNotices_frame (s : State) :
    s.driveNotices.lineTable = s.lineTable ∧ s.driveNotices.mix = s.mix ∧ s.driveNotices.cue = s.cue ∧
    s.driveNotices.players = s.players ∧ s.driveNotices.meter = s.meter ∧ s.driveNotices.clock = s.clock ∧
    s.driveNotices.ports = s.ports ∧ s.driveNotices.free = s.free ∧ s.driveNotices.pending = s.pending := by
  simp [State.driveNotices]

@[simp] theorem State.markRead_frame (s : State) (p : Port) :
    (s.markRead p).lineTable = s.lineTable ∧ (s.markRead p).mix = s.mix ∧ (s.markRead p).cue = s.cue ∧
    (s.markRead p).players = s.players ∧ (s.markRead p).meter = s.meter ∧ (s.markRead p).clock = s.clock ∧
    (s.markRead p).free = s.free ∧ (s.markRead p).pending = s.pending := by simp [State.markRead]

@[simp] theorem State.respond_frame (s : State) (p : Port) (more : List Byte) :
    (s.respond p more).lineTable = s.lineTable ∧ (s.respond p more).mix = s.mix ∧ (s.respond p more).cue = s.cue ∧
    (s.respond p more).players = s.players ∧ (s.respond p more).meter = s.meter ∧ (s.respond p more).clock = s.clock ∧
    (s.respond p more).free = s.free ∧ (s.respond p more).pending = s.pending := by simp [State.respond]

@[simp] theorem State.settle_frame (s : State) (p : Port) (code : Byte) (args : List Byte) (r : Option Result) :
    (s.settle p code args r).lineTable = s.lineTable ∧ (s.settle p code args r).mix = s.mix ∧
    (s.settle p code args r).cue = s.cue ∧ (s.settle p code args r).players = s.players ∧
    (s.settle p code args r).meter = s.meter ∧ (s.settle p code args r).clock = s.clock ∧
    (s.settle p code args r).free = s.free ∧ (s.settle p code args r).pending = s.pending := by cases r <;> simp
    [State.settle]

/-! ## Frames: players and groups -/

@[simp] theorem State.endPlayer_frame (s : State) (p : Port) (why : EndReason) (a : Nat) :
    (s.endPlayer p why a).lineTable = s.lineTable ∧ (s.endPlayer p why a).cue = s.cue ∧
    (s.endPlayer p why a).notice = s.notice ∧ (s.endPlayer p why a).meter = s.meter ∧
    (s.endPlayer p why a).clock = s.clock ∧ (s.endPlayer p why a).ports = s.ports ∧
    (s.endPlayer p why a).free = s.free ∧ (s.endPlayer p why a).pending = s.pending := by simp [State.endPlayer]

@[simp] theorem State.endPlayers_frame (s : State) (sel : Port → Bool) (why : EndReason) :
    (s.endPlayers sel why).lineTable = s.lineTable ∧ (s.endPlayers sel why).cue = s.cue ∧
    (s.endPlayers sel why).notice = s.notice ∧ (s.endPlayers sel why).meter = s.meter ∧
    (s.endPlayers sel why).clock = s.clock ∧ (s.endPlayers sel why).ports = s.ports ∧
    (s.endPlayers sel why).free = s.free ∧ (s.endPlayers sel why).pending = s.pending := by simp [State.endPlayers]

@[simp] theorem State.tellAwaiting_frame (s : State) (l : Line) (c : Condition) :
    (s.tellAwaiting l c).lineTable = s.lineTable ∧ (s.tellAwaiting l c).mix = s.mix ∧
    (s.tellAwaiting l c).cue = s.cue ∧ (s.tellAwaiting l c).notice = s.notice ∧ (s.tellAwaiting l c).meter = s.meter ∧
    (s.tellAwaiting l c).clock = s.clock ∧ (s.tellAwaiting l c).ports = s.ports ∧ (s.tellAwaiting l c).free = s.free ∧
    (s.tellAwaiting l c).pending = s.pending := by simp [State.tellAwaiting]

@[simp] theorem State.tellPaused_frame (s : State) :
    s.tellPaused.lineTable = s.lineTable ∧ s.tellPaused.mix = s.mix ∧ s.tellPaused.cue = s.cue ∧
    s.tellPaused.notice = s.notice ∧ s.tellPaused.meter = s.meter ∧ s.tellPaused.clock = s.clock ∧
    s.tellPaused.ports = s.ports ∧ s.tellPaused.free = s.free ∧ s.tellPaused.pending = s.pending := by
  simp [State.tellPaused]

@[simp] theorem State.discard_frame (s : State) (named : Action → Bool) :
    (s.discard named).lineTable = s.lineTable ∧ (s.discard named).cue = s.cue ∧ (s.discard named).notice = s.notice ∧
    (s.discard named).meter = s.meter ∧ (s.discard named).clock = s.clock ∧ (s.discard named).ports = s.ports ∧
    (s.discard named).free = s.free ∧ (s.discard named).pending = s.pending := by simp [State.discard]

@[simp] theorem State.stepDone_frame (s : State) (p : Port) :
    (s.stepDone p).lineTable = s.lineTable ∧ (s.stepDone p).mix = s.mix ∧ (s.stepDone p).cue = s.cue ∧
    (s.stepDone p).notice = s.notice ∧ (s.stepDone p).meter = s.meter ∧ (s.stepDone p).clock = s.clock ∧
    (s.stepDone p).ports = s.ports ∧ (s.stepDone p).free = s.free ∧ (s.stepDone p).pending = s.pending := by
  simp [State.stepDone]

@[simp] theorem State.performAction_frame (s : State) (a : Action) :
    (s.performAction a).cue = s.cue ∧ (s.performAction a).players = s.players ∧
    (s.performAction a).notice = s.notice ∧ (s.performAction a).meter = s.meter ∧
    (s.performAction a).clock = s.clock ∧ (s.performAction a).ports = s.ports ∧ (s.performAction a).free = s.free ∧
    (s.performAction a).pending = s.pending := by cases a <;> simp [State.performAction]

/-! ## Frames: ownership and talkback -/

@[simp] theorem State.changeOwner_frame (s : State) (l : Line) (prev : Port) (new : Option Port) (actor : Port) :
    (s.changeOwner l prev new actor).cue = s.cue ∧ (s.changeOwner l prev new actor).meter = s.meter ∧
    (s.changeOwner l prev new actor).clock = s.clock ∧ (s.changeOwner l prev new actor).free = s.free ∧
    (s.changeOwner l prev new actor).pending = s.pending := by
  unfold State.changeOwner
  dsimp only
  split <;> simp

@[simp] theorem State.setTalk_frame (s : State) (l : Line) (t : TalkSlot) :
    (s.setTalk l t).cue = s.cue ∧ (s.setTalk l t).players = s.players ∧ (s.setTalk l t).notice = s.notice ∧
    (s.setTalk l t).meter = s.meter ∧ (s.setTalk l t).clock = s.clock ∧ (s.setTalk l t).ports = s.ports ∧
    (s.setTalk l t).free = s.free ∧ (s.setTalk l t).pending = s.pending := by simp [State.setTalk]

@[simp] theorem State.clearTalks_frame (s : State) (sel : Line → Bool) :
    (s.clearTalks sel).cue = s.cue ∧ (s.clearTalks sel).players = s.players ∧ (s.clearTalks sel).notice = s.notice ∧
    (s.clearTalks sel).meter = s.meter ∧ (s.clearTalks sel).clock = s.clock ∧ (s.clearTalks sel).ports = s.ports ∧
    (s.clearTalks sel).free = s.free ∧ (s.clearTalks sel).pending = s.pending := by simp [State.clearTalks]

@[simp] theorem State.grantFree_frame (s : State) (l : Line) (p : Port) :
    (s.grantFree l p).mix = s.mix ∧ (s.grantFree l p).cue = s.cue ∧ (s.grantFree l p).players = s.players ∧
    (s.grantFree l p).meter = s.meter ∧ (s.grantFree l p).clock = s.clock ∧ (s.grantFree l p).ports = s.ports ∧
    (s.grantFree l p).free = s.free ∧ (s.grantFree l p).pending = s.pending := by simp [State.grantFree]

@[simp] theorem State.assignBus_frame (s : State) (b : Bus) (q : Port) :
    (s.assignBus b q).cue = s.cue ∧ (s.assignBus b q).notice = s.notice ∧ (s.assignBus b q).meter = s.meter ∧
    (s.assignBus b q).clock = s.clock ∧ (s.assignBus b q).ports = s.ports ∧ (s.assignBus b q).free = s.free ∧
    (s.assignBus b q).pending = s.pending := by simp [State.assignBus]

@[simp] theorem State.clearAll_frame (s : State) :
    s.clearAll.cue = s.cue ∧ s.clearAll.meter = s.meter ∧ s.clearAll.clock = s.clock ∧ s.clearAll.free = s.free ∧
    s.clearAll.pending = s.pending := by
  unfold State.clearAll
  simp

@[simp] theorem State.endWait_frame (s : State) (l : Line) (p : Port) (why : Reason) :
    (s.endWait l p why).mix = s.mix ∧ (s.endWait l p why).cue = s.cue ∧ (s.endWait l p why).players = s.players ∧
    (s.endWait l p why).meter = s.meter ∧ (s.endWait l p why).clock = s.clock ∧ (s.endWait l p why).free = s.free ∧
    (s.endWait l p why).pending = s.pending := by
  unfold State.endWait
  simp

@[simp] theorem State.expireClaimWait_frame (s : State) (l : Line) (p : Port) :
    (s.expireClaimWait l p).mix = s.mix ∧ (s.expireClaimWait l p).cue = s.cue ∧
    (s.expireClaimWait l p).players = s.players ∧ (s.expireClaimWait l p).meter = s.meter ∧
    (s.expireClaimWait l p).clock = s.clock ∧ (s.expireClaimWait l p).free = s.free ∧
    (s.expireClaimWait l p).pending = s.pending := by
  unfold State.expireClaimWait
  split <;> simp

@[simp] theorem State.talkOn_frame (s : State) (l : Line) (t : TalkSlot) :
    (s.talkOn l t).cue = s.cue ∧ (s.talkOn l t).players = s.players ∧ (s.talkOn l t).meter = s.meter ∧
    (s.talkOn l t).clock = s.clock ∧ (s.talkOn l t).ports = s.ports ∧ (s.talkOn l t).free = s.free ∧
    (s.talkOn l t).pending = s.pending := by
  unfold State.talkOn
  simp

/-! ## Frames: loaders, meters and clock -/

@[simp] theorem State.markRange_frame (s : State) (p : Port) (a n : Nat) (v : Bool) :
    (s.markRange p a n v).lineTable = s.lineTable ∧ (s.markRange p a n v).mix = s.mix ∧
    (s.markRange p a n v).players = s.players ∧ (s.markRange p a n v).notice = s.notice ∧
    (s.markRange p a n v).meter = s.meter ∧ (s.markRange p a n v).clock = s.clock ∧
    (s.markRange p a n v).ports = s.ports ∧ (s.markRange p a n v).free = s.free ∧
    (s.markRange p a n v).pending = s.pending := by simp [State.markRange]

@[simp] theorem State.expireChunkTimer_frame (s : State) (p : Port) :
    (s.expireChunkTimer p).lineTable = s.lineTable ∧ (s.expireChunkTimer p).mix = s.mix ∧
    (s.expireChunkTimer p).players = s.players ∧ (s.expireChunkTimer p).notice = s.notice ∧
    (s.expireChunkTimer p).meter = s.meter ∧ (s.expireChunkTimer p).clock = s.clock ∧
    (s.expireChunkTimer p).ports = s.ports ∧ (s.expireChunkTimer p).free = s.free ∧
    (s.expireChunkTimer p).pending = s.pending := by
  unfold State.expireChunkTimer
  split <;> simp

@[simp] theorem State.expireWaitTimer_frame (s : State) (p : Port) :
    (s.expireWaitTimer p).lineTable = s.lineTable ∧ (s.expireWaitTimer p).mix = s.mix ∧
    (s.expireWaitTimer p).cue = s.cue ∧ (s.expireWaitTimer p).notice = s.notice ∧
    (s.expireWaitTimer p).meter = s.meter ∧ (s.expireWaitTimer p).clock = s.clock ∧
    (s.expireWaitTimer p).ports = s.ports ∧ (s.expireWaitTimer p).free = s.free ∧
    (s.expireWaitTimer p).pending = s.pending := by
  unfold State.expireWaitTimer
  split <;> simp

@[simp] theorem State.expireAwaitTimer_frame (s : State) (p : Port) :
    (s.expireAwaitTimer p).lineTable = s.lineTable ∧ (s.expireAwaitTimer p).mix = s.mix ∧
    (s.expireAwaitTimer p).cue = s.cue ∧ (s.expireAwaitTimer p).notice = s.notice ∧
    (s.expireAwaitTimer p).meter = s.meter ∧ (s.expireAwaitTimer p).clock = s.clock ∧
    (s.expireAwaitTimer p).ports = s.ports ∧ (s.expireAwaitTimer p).free = s.free ∧
    (s.expireAwaitTimer p).pending = s.pending := by
  unfold State.expireAwaitTimer
  split <;> simp

@[simp] theorem State.capture_frame (s : State) :
    s.capture.lineTable = s.lineTable ∧ s.capture.mix = s.mix ∧ s.capture.cue = s.cue ∧
    s.capture.players = s.players ∧ s.capture.clock = s.clock ∧ s.capture.free = s.free ∧
    s.capture.pending = s.pending := by
  unfold State.capture
  split <;> simp

@[simp] theorem State.expireSnapshot_frame (s : State) :
    s.expireSnapshot.lineTable = s.lineTable ∧ s.expireSnapshot.mix = s.mix ∧ s.expireSnapshot.cue = s.cue ∧
    s.expireSnapshot.players = s.players ∧ s.expireSnapshot.notice = s.notice ∧ s.expireSnapshot.clock = s.clock ∧
    s.expireSnapshot.ports = s.ports ∧ s.expireSnapshot.free = s.free ∧ s.expireSnapshot.pending = s.pending := by
  unfold State.expireSnapshot
  split <;> simp

@[simp] theorem State.startAcquiring_frame (s : State) (r : RefId) :
    (s.startAcquiring r).lineTable = s.lineTable ∧ (s.startAcquiring r).mix = s.mix ∧
    (s.startAcquiring r).cue = s.cue ∧ (s.startAcquiring r).players = s.players ∧
    (s.startAcquiring r).notice = s.notice ∧ (s.startAcquiring r).meter = s.meter ∧
    (s.startAcquiring r).ports = s.ports ∧ (s.startAcquiring r).free = s.free ∧
    (s.startAcquiring r).pending = s.pending := by
  unfold State.startAcquiring
  dsimp only
  split <;> simp

@[simp] theorem State.flagReference_frame (s : State) :
    s.flagReference.lineTable = s.lineTable ∧ s.flagReference.mix = s.mix ∧ s.flagReference.cue = s.cue ∧
    s.flagReference.players = s.players ∧ s.flagReference.meter = s.meter ∧ s.flagReference.clock = s.clock ∧
    s.flagReference.ports = s.ports ∧ s.flagReference.free = s.free ∧ s.flagReference.pending = s.pending := by
  simp [State.flagReference]

@[simp] theorem State.lockReference_frame (s : State) (r : RefId) :
    (s.lockReference r).lineTable = s.lineTable ∧ (s.lockReference r).mix = s.mix ∧ (s.lockReference r).cue = s.cue ∧
    (s.lockReference r).players = s.players ∧ (s.lockReference r).meter = s.meter ∧
    (s.lockReference r).ports = s.ports ∧ (s.lockReference r).free = s.free ∧ (s.lockReference r).pending = s.pending := by
  unfold State.lockReference
  dsimp only
  (repeat' split) <;> simp

@[simp] theorem State.loseReference_frame (s : State) (r : RefId) :
    (s.loseReference r).lineTable = s.lineTable ∧ (s.loseReference r).mix = s.mix ∧ (s.loseReference r).cue = s.cue ∧
    (s.loseReference r).players = s.players ∧ (s.loseReference r).meter = s.meter ∧
    (s.loseReference r).ports = s.ports ∧ (s.loseReference r).free = s.free ∧ (s.loseReference r).pending = s.pending := by
  unfold State.loseReference
  dsimp only
  (repeat' split) <;> simp

@[simp] theorem State.takeLockOrLoss_frame (s : State) (r : RefId) :
    (s.takeLockOrLoss r).lineTable = s.lineTable ∧ (s.takeLockOrLoss r).mix = s.mix ∧
    (s.takeLockOrLoss r).cue = s.cue ∧ (s.takeLockOrLoss r).players = s.players ∧
    (s.takeLockOrLoss r).meter = s.meter ∧ (s.takeLockOrLoss r).ports = s.ports ∧ (s.takeLockOrLoss r).free = s.free ∧
    (s.takeLockOrLoss r).pending = s.pending := by
  unfold State.takeLockOrLoss
  (repeat' split) <;> simp

@[simp] theorem State.followPeriod_frame (s : State) (r : RefId) :
    (s.followPeriod r).lineTable = s.lineTable ∧ (s.followPeriod r).mix = s.mix ∧ (s.followPeriod r).cue = s.cue ∧
    (s.followPeriod r).players = s.players ∧ (s.followPeriod r).notice = s.notice ∧
    (s.followPeriod r).meter = s.meter ∧ (s.followPeriod r).ports = s.ports ∧ (s.followPeriod r).pending = s.pending := by
  unfold State.followPeriod
  (repeat' split) <;> simp

@[simp] theorem State.soundPeriod_frame (s : State) (r : RefId) (n : Nat) :
    (s.soundPeriod r n).lineTable = s.lineTable ∧ (s.soundPeriod r n).mix = s.mix ∧ (s.soundPeriod r n).cue = s.cue ∧
    (s.soundPeriod r n).players = s.players ∧ (s.soundPeriod r n).notice = s.notice ∧
    (s.soundPeriod r n).meter = s.meter ∧ (s.soundPeriod r n).ports = s.ports ∧
    (s.soundPeriod r n).pending = s.pending := by
  unfold State.soundPeriod
  simp

@[simp] theorem State.missed_frame (s : State) (r : RefId) :
    (s.missed r).lineTable = s.lineTable ∧ (s.missed r).mix = s.mix ∧ (s.missed r).cue = s.cue ∧
    (s.missed r).players = s.players ∧ (s.missed r).meter = s.meter ∧ (s.missed r).ports = s.ports ∧
    (s.missed r).free = s.free ∧ (s.missed r).pending = s.pending := by
  unfold State.missed
  dsimp only
  split <;> simp

@[simp] theorem State.missMany_frame (s : State) (n : Nat) :
    (s.missMany n).lineTable = s.lineTable ∧ (s.missMany n).mix = s.mix ∧ (s.missMany n).cue = s.cue ∧
    (s.missMany n).players = s.players ∧ (s.missMany n).meter = s.meter ∧ (s.missMany n).ports = s.ports ∧
    (s.missMany n).free = s.free ∧ (s.missMany n).pending = s.pending := by
  induction n generalizing s with
  | zero => simp [State.missMany]
  | succ n ih => simp [State.missMany, ih]

@[simp] theorem State.arrival_frame (s : State) (r : RefId) (n : Nat) :
    (s.arrival r n).lineTable = s.lineTable ∧ (s.arrival r n).mix = s.mix ∧ (s.arrival r n).cue = s.cue ∧
    (s.arrival r n).players = s.players ∧ (s.arrival r n).meter = s.meter ∧ (s.arrival r n).ports = s.ports ∧
    (s.arrival r n).pending = s.pending := by
  unfold State.arrival
  dsimp only
  (repeat' split) <;> simp

@[simp] theorem State.takeMarkerDue_frame (s : State) :
    s.takeMarkerDue.lineTable = s.lineTable ∧ s.takeMarkerDue.mix = s.mix ∧ s.takeMarkerDue.cue = s.cue ∧
    s.takeMarkerDue.players = s.players ∧ s.takeMarkerDue.meter = s.meter ∧ s.takeMarkerDue.ports = s.ports ∧
    s.takeMarkerDue.pending = s.pending := by
  unfold State.takeMarkerDue
  (repeat' split) <;> simp

/-! ## Frames: resets, FREEZE and ABORT -/

@[simp] theorem State.withdrawWaits_frame (s : State) (p : Port) :
    (s.withdrawWaits p).mix = s.mix ∧ (s.withdrawWaits p).cue = s.cue ∧ (s.withdrawWaits p).players = s.players ∧
    (s.withdrawWaits p).notice = s.notice ∧ (s.withdrawWaits p).meter = s.meter ∧
    (s.withdrawWaits p).clock = s.clock ∧ (s.withdrawWaits p).ports = s.ports ∧ (s.withdrawWaits p).free = s.free ∧
    (s.withdrawWaits p).pending = s.pending := by simp [State.withdrawWaits]

@[simp] theorem State.clearTalksOf_frame (s : State) (p : Port) :
    (s.clearTalksOf p).cue = s.cue ∧ (s.clearTalksOf p).players = s.players ∧ (s.clearTalksOf p).notice = s.notice ∧
    (s.clearTalksOf p).meter = s.meter ∧ (s.clearTalksOf p).clock = s.clock ∧ (s.clearTalksOf p).ports = s.ports ∧
    (s.clearTalksOf p).free = s.free ∧ (s.clearTalksOf p).pending = s.pending := by simp [State.clearTalksOf]

@[simp] theorem State.resetMeter_frame (s : State) (p : Port) :
    (s.resetMeter p).lineTable = s.lineTable ∧ (s.resetMeter p).mix = s.mix ∧ (s.resetMeter p).cue = s.cue ∧
    (s.resetMeter p).players = s.players ∧ (s.resetMeter p).notice = s.notice ∧ (s.resetMeter p).clock = s.clock ∧
    (s.resetMeter p).ports = s.ports ∧ (s.resetMeter p).free = s.free ∧ (s.resetMeter p).pending = s.pending := by
  simp [State.resetMeter]

@[simp] theorem State.resetNotices_frame (s : State) (p : Port) :
    (s.resetNotices p).lineTable = s.lineTable ∧ (s.resetNotices p).mix = s.mix ∧ (s.resetNotices p).cue = s.cue ∧
    (s.resetNotices p).players = s.players ∧ (s.resetNotices p).meter = s.meter ∧ (s.resetNotices p).clock = s.clock ∧
    (s.resetNotices p).ports = s.ports ∧ (s.resetNotices p).free = s.free ∧ (s.resetNotices p).pending = s.pending := by
  simp [State.resetNotices]

@[simp] theorem State.abandonLoad_frame (s : State) (p : Port) :
    (s.abandonLoad p).lineTable = s.lineTable ∧ (s.abandonLoad p).mix = s.mix ∧
    (s.abandonLoad p).players = s.players ∧ (s.abandonLoad p).notice = s.notice ∧ (s.abandonLoad p).meter = s.meter ∧
    (s.abandonLoad p).clock = s.clock ∧ (s.abandonLoad p).ports = s.ports ∧ (s.abandonLoad p).free = s.free ∧
    (s.abandonLoad p).pending = s.pending := by
  unfold State.abandonLoad
  split <;> simp

@[simp] theorem State.abortTask_frame (s : State) (p : Port) (code : Byte) :
    (s.abortTask p code).mix = s.mix ∧ (s.abortTask p code).cue = s.cue ∧ (s.abortTask p code).players = s.players ∧
    (s.abortTask p code).clock = s.clock ∧ (s.abortTask p code).free = s.free ∧
    (s.abortTask p code).pending = s.pending := by
  unfold State.abortTask
  (repeat' split) <;> simp

@[simp] theorem State.setFreeze_frame (s : State) (v : Bool) :
    (s.setFreeze v).lineTable = s.lineTable ∧ (s.setFreeze v).mix = s.mix ∧ (s.setFreeze v).cue = s.cue ∧
    (s.setFreeze v).players = s.players ∧ (s.setFreeze v).notice = s.notice ∧ (s.setFreeze v).meter = s.meter ∧
    (s.setFreeze v).clock = s.clock ∧ (s.setFreeze v).free = s.free ∧ (s.setFreeze v).pending = s.pending := by
  simp [State.setFreeze]

/-! ## Frames: signalling -/

@[simp] theorem State.takeConnect_frame (s : State) (l : Line) :
    (s.takeConnect l).mix = s.mix ∧ (s.takeConnect l).cue = s.cue ∧ (s.takeConnect l).notice = s.notice ∧
    (s.takeConnect l).meter = s.meter ∧ (s.takeConnect l).clock = s.clock ∧ (s.takeConnect l).ports = s.ports ∧
    (s.takeConnect l).free = s.free ∧ (s.takeConnect l).pending = s.pending := by simp [State.takeConnect]

@[simp] theorem State.takeDisconnect_frame (s : State) (l : Line) :
    (s.takeDisconnect l).mix = s.mix ∧ (s.takeDisconnect l).cue = s.cue ∧ (s.takeDisconnect l).meter = s.meter ∧
    (s.takeDisconnect l).clock = s.clock ∧ (s.takeDisconnect l).ports = s.ports ∧ (s.takeDisconnect l).free = s.free ∧
    (s.takeDisconnect l).pending = s.pending := by
  unfold State.takeDisconnect
  dsimp only
  split <;> simp

@[simp] theorem State.takeAttentionRaised_frame (s : State) (l : Line) :
    (s.takeAttentionRaised l).mix = s.mix ∧ (s.takeAttentionRaised l).cue = s.cue ∧
    (s.takeAttentionRaised l).meter = s.meter ∧ (s.takeAttentionRaised l).clock = s.clock ∧
    (s.takeAttentionRaised l).ports = s.ports ∧ (s.takeAttentionRaised l).free = s.free ∧
    (s.takeAttentionRaised l).pending = s.pending := by
  unfold State.takeAttentionRaised
  dsimp only
  split <;> simp

@[simp] theorem State.takeAttentionDropped_frame (s : State) (l : Line) :
    (s.takeAttentionDropped l).mix = s.mix ∧ (s.takeAttentionDropped l).cue = s.cue ∧
    (s.takeAttentionDropped l).players = s.players ∧ (s.takeAttentionDropped l).notice = s.notice ∧
    (s.takeAttentionDropped l).meter = s.meter ∧ (s.takeAttentionDropped l).clock = s.clock ∧
    (s.takeAttentionDropped l).ports = s.ports ∧ (s.takeAttentionDropped l).free = s.free ∧
    (s.takeAttentionDropped l).pending = s.pending := by simp [State.takeAttentionDropped]

@[simp] theorem State.takeDueSignals_frame (s : State) (l : Line) :
    (s.takeDueSignals l).mix = s.mix ∧ (s.takeDueSignals l).cue = s.cue ∧ (s.takeDueSignals l).meter = s.meter ∧
    (s.takeDueSignals l).clock = s.clock ∧ (s.takeDueSignals l).ports = s.ports ∧ (s.takeDueSignals l).free = s.free ∧
    (s.takeDueSignals l).pending = s.pending := by
  unfold State.takeDueSignals
  dsimp only
  (repeat' split) <;> simp

@[simp] theorem State.stepDebounce_frame (s : State) (rx : LineFrame) :
    (s.stepDebounce rx).mix = s.mix ∧ (s.stepDebounce rx).cue = s.cue ∧ (s.stepDebounce rx).players = s.players ∧
    (s.stepDebounce rx).notice = s.notice ∧ (s.stepDebounce rx).meter = s.meter ∧ (s.stepDebounce rx).clock = s.clock ∧
    (s.stepDebounce rx).ports = s.ports ∧ (s.stepDebounce rx).free = s.free ∧
    (s.stepDebounce rx).pending = s.pending := by
  simp [State.stepDebounce]

/-! ## Frames: the frame event -/

@[simp] theorem State.applyGroup_frame (s : State) (g : List Staged) :
    (s.applyGroup g).cue = s.cue ∧ (s.applyGroup g).players = s.players ∧ (s.applyGroup g).notice = s.notice ∧
    (s.applyGroup g).meter = s.meter ∧ (s.applyGroup g).clock = s.clock ∧ (s.applyGroup g).ports = s.ports ∧
    (s.applyGroup g).free = s.free ∧ (s.applyGroup g).pending = s.pending :=
  ⟨foldl_keeps _ State.cue (fun s p => by simp) _ s,
    foldl_keeps _ State.players (fun s p => by simp) _ s,
    foldl_keeps _ State.notice (fun s p => by simp) _ s,
    foldl_keeps _ State.meter (fun s p => by simp) _ s,
    foldl_keeps _ State.clock (fun s p => by simp) _ s,
    foldl_keeps _ State.ports (fun s p => by simp) _ s,
    foldl_keeps _ State.free (fun s p => by simp) _ s,
    foldl_keeps _ State.pending (fun s p => by simp) _ s⟩

@[simp] theorem State.applyPending_frame (s : State) (p : Port) :
    (s.applyPending p).cue = s.cue ∧ (s.applyPending p).notice = s.notice ∧ (s.applyPending p).meter = s.meter ∧
    (s.applyPending p).clock = s.clock ∧ (s.applyPending p).ports = s.ports ∧ (s.applyPending p).free = s.free ∧
    (s.applyPending p).pending = s.pending := by
  unfold State.applyPending
  split <;> simp

@[simp] theorem State.applyGroups_frame (s : State) :
    s.applyGroups.cue = s.cue ∧ s.applyGroups.notice = s.notice ∧ s.applyGroups.meter = s.meter ∧
    s.applyGroups.clock = s.clock ∧ s.applyGroups.ports = s.ports ∧ s.applyGroups.free = s.free ∧
    s.applyGroups.pending = s.pending :=
  ⟨foldl_keeps _ State.cue (fun s p => by simp) _ s,
    foldl_keeps _ State.notice (fun s p => by simp) _ s,
    foldl_keeps _ State.meter (fun s p => by simp) _ s,
    foldl_keeps _ State.clock (fun s p => by simp) _ s,
    foldl_keeps _ State.ports (fun s p => by simp) _ s,
    foldl_keeps _ State.free (fun s p => by simp) _ s,
    foldl_keeps _ State.pending (fun s p => by simp) _ s⟩

@[simp] theorem State.tickTimers_frame (s : State) :
    s.tickTimers.mix = s.mix ∧ s.tickTimers.notice = s.notice ∧ s.tickTimers.ports = s.ports ∧
    s.tickTimers.free = s.free ∧ s.tickTimers.pending = s.pending := by simp [State.tickTimers]

@[simp] theorem State.expirePort_frame (s : State) (p : Port) :
    (s.expirePort p).mix = s.mix ∧ (s.expirePort p).meter = s.meter ∧ (s.expirePort p).clock = s.clock ∧
    (s.expirePort p).free = s.free ∧ (s.expirePort p).pending = s.pending := by
  have mix := foldl_keeps (fun t l => State.expireClaimWait t l p) State.mix (fun s l => by simp) (List.finRange 24) s
  have meter := foldl_keeps (fun t l => State.expireClaimWait t l p) State.meter (fun s l => by simp) (List.finRange 24) s
  have clock := foldl_keeps (fun t l => State.expireClaimWait t l p) State.clock (fun s l => by simp) (List.finRange 24) s
  have free := foldl_keeps (fun t l => State.expireClaimWait t l p) State.free (fun s l => by simp) (List.finRange 24) s
  have pending := foldl_keeps (fun t l => State.expireClaimWait t l p) State.pending (fun s l => by simp)
    (List.finRange 24) s
  simp only [State.expirePort, State.expireAwaitTimer_frame, State.expireWaitTimer_frame, State.expireChunkTimer_frame]
  exact ⟨mix, meter, clock, free, pending⟩

@[simp] theorem State.expireOverdue_frame (s : State) :
    s.expireOverdue.mix = s.mix ∧ s.expireOverdue.clock = s.clock ∧ s.expireOverdue.free = s.free ∧
    s.expireOverdue.pending = s.pending := by
  have mix := foldl_keeps State.expirePort State.mix (fun s p => by simp) (List.finRange 4) s
  have clock := foldl_keeps State.expirePort State.clock (fun s p => by simp) (List.finRange 4) s
  have free := foldl_keeps State.expirePort State.free (fun s p => by simp) (List.finRange 4) s
  have pending := foldl_keeps State.expirePort State.pending (fun s p => by simp) (List.finRange 4) s
  simp only [State.expireOverdue, State.expireSnapshot_frame]
  exact ⟨mix, clock, free, pending⟩

@[simp] theorem State.reportMeters_frame (s : State) (o : Table 32 (Int × Bool)) :
    (s.reportMeters o).lineTable = s.lineTable ∧ (s.reportMeters o).mix = s.mix ∧ (s.reportMeters o).cue = s.cue ∧
    (s.reportMeters o).players = s.players ∧ (s.reportMeters o).clock = s.clock ∧ (s.reportMeters o).free = s.free ∧
    (s.reportMeters o).pending = s.pending := by
  unfold State.reportMeters
  simp

@[simp] theorem State.frameParts_frame (s : State) (rx : InputFrame) :
    (s.frameParts rx).cue = s.cue ∧ (s.frameParts rx).clock = s.clock ∧ (s.frameParts rx).free = s.free ∧
    (s.frameParts rx).pending = s.pending := by
  unfold State.frameParts
  simp

end Sys2Proof.Machine
end

