-- ==== Sys2Proof/Laws/Table.lean ====
section
/-! SUPPORT. The laws of tables: reading after writing, and extensionality. -/

namespace Sys2Proof

variable {n : Nat} {α : Type}

@[simp] theorem tget_tmake (f : Fin n → α) (i : Fin n) : tget (tmake f) i = f i := by
  simp [tget, tmake]

@[simp] theorem tget_tall (a : α) (i : Fin n) : tget (tall a : Table n α) i = a := by
  simp [tall]

@[simp] theorem tget_tset_self (t : Table n α) (i : Fin n) (a : α) : tget (tset t i a) i = a := by
  simp [tget, tset]

theorem tget_tset_of_ne (t : Table n α) {i j : Fin n} (a : α) (h : j ≠ i) : tget (tset t i a) j = tget t j := by
  have : i.val ≠ j.val := fun e => h (Fin.ext e.symm)
  simp [tget, tset, this]

/-- An entry of a table with one entry replaced. -/
theorem tget_tset (t : Table n α) (i j : Fin n) (a : α) : tget (tset t i a) j = if j = i then a else tget t j := by
  by_cases h : j = i
  · simp [h]
  · simp [h, tget_tset_of_ne]

@[simp] theorem tget_tmod_self (t : Table n α) (i : Fin n) (f : α → α) : tget (tmod t i f) i = f (tget t i) := by
  simp [tmod]

/-- An entry of a table with one entry changed. -/
theorem tget_tmod (t : Table n α) (i j : Fin n) (f : α → α) :
    tget (tmod t i f) j = if j = i then f (tget t i) else tget t j := by
  simp [tmod, tget_tset]

theorem tget_tmod_of_ne (t : Table n α) {i j : Fin n} (f : α → α) (h : j ≠ i) : tget (tmod t i f) j = tget t j := by
  simp [tget_tmod, h]

/-- Tables with equal entries are equal. -/
theorem table_ext {t u : Table n α} (h : ∀ i, tget t i = tget u i) : t = u :=
  Vector.ext fun i hi => h ⟨i, hi⟩

/-- Writing the entry a table already holds changes nothing. -/
@[simp] theorem tset_tget (t : Table n α) (i : Fin n) : tset t i (tget t i) = t :=
  table_ext fun j => by
    by_cases h : j = i
    · simp [h]
    · simp [tget_tset_of_ne, h]

/-- A table rebuilt from its own entries is that table. -/
@[simp] theorem tmake_tget (t : Table n α) : (tmake fun i => tget t i) = t := table_ext fun i => by simp

/-- The contributor of a line is that line. -/
@[simp] theorem line?_contributor (l : Line) : Contributor.line? (Line.contributor l) = some l := by
  simp [Contributor.line?]

/-- The contributor of a source is no line. -/
@[simp] theorem line?_source (x : Source) : Contributor.line? (Source.contributor x) = none := by
  simp [Contributor.line?]

/-- A contributor that is a line is that line's contributor. -/
theorem contributor_of_line? {c : Contributor} {l : Line} (h : c.line? = some l) : c = Line.contributor l := by
  unfold Contributor.line? at h
  split at h
  · cases h; rfl
  · cases h

end Sys2Proof
end

