-- ==== Sys2Proof/Laws/Effects.lean ====
section
/-! SUPPORT. The effect of each shared operation on the block it does touch: one lemma that says once all of it, entry by entry. -/

namespace Sys2Proof.Machine

open Sys2Proof Sys2Proof.Safety

/-! ## Records -/

/-- One line's record is changed, the others and the bus owners are kept. -/
theorem State.modLine_spec (s : State) (l : Line) (f : LineRec → LineRec) :
    (∀ k, (s.modLine l f).line k = if k = l then f (s.line l) else s.line k) ∧
    (s.modLine l f).lineTable.busOwner = s.lineTable.busOwner := by
  constructor
  · intro k
    simp [State.line, State.modLine, tget_tmod]
  · simp [State.modLine]

/-- Every line's record is changed by its function, the bus owners are kept. -/
theorem State.mapLines_spec (s : State) (f : Line → LineRec → LineRec) :
    (∀ k, (s.mapLines f).line k = f k (s.line k)) ∧ (s.mapLines f).lineTable.busOwner = s.lineTable.busOwner := by
  constructor
  · intro k
    simp [State.line, State.mapLines]
  · simp [State.mapLines]

/-- One port is changed, the others and the FREEZE level are kept. -/
theorem State.modPort_spec (s : State) (p : Port) (f : CtrlPort → CtrlPort) :
    (∀ q, (s.modPort p f).port q = if q = p then f (s.port p) else s.port q) ∧
    (s.modPort p f).ports.freeze = s.ports.freeze := by
  constructor
  · intro q
    simp [State.port, State.modPort, tget_tmod]
  · simp [State.modPort]

/-- One player is replaced, the others are kept. -/
theorem State.setPlayer_spec (s : State) (p : Port) (x : Player) (q : Port) :
    (s.setPlayer p x).player q = if q = p then x else s.player q := by
  simp [State.player, State.setPlayer, tget_tset]

/-- One loader is replaced; the others, the memory and the marks are kept. -/
theorem State.setLoader_spec (s : State) (p : Port) (x : Loader) :
    (∀ q, (s.setLoader p x).loader q = if q = p then x else s.loader q) ∧
    (s.setLoader p x).cue.mem = s.cue.mem ∧ (s.setLoader p x).cue.valid = s.cue.valid := by
  refine ⟨fun q => ?_, by simp [State.setLoader], by simp [State.setLoader]⟩
  simp [State.loader, State.setLoader, tget_tset]

/-- One reference record is replaced; the rest of the Frame Clock Unit is kept. -/
theorem State.setRef_spec (s : State) (r : RefId) (x : RefRec) :
    (∀ k, (s.setRef r x).ref k = if k = r then x else s.ref k) ∧
    (s.setRef r x).clock = { s.clock with refs := (s.setRef r x).clock.refs } := by
  refine ⟨fun k => ?_, by simp [State.setRef]⟩
  simp [State.ref, State.setRef, tget_tset]

/-- The marks of a range are set to one value, the memory, the loaders and the other marks are kept (R116). -/
theorem State.markRange_spec (s : State) (p : Port) (a n : Nat) (v : Bool) :
    (∀ q i, tget (tget (s.markRange p a n v).cue.valid q) i =
      if q = p ∧ a ≤ i.val ∧ i.val < a + n then v else tget (tget s.cue.valid q) i) ∧
    (s.markRange p a n v).cue.mem = s.cue.mem ∧ (s.markRange p a n v).cue.loaders = s.cue.loaders := by
  refine ⟨fun q i => ?_, by simp [State.markRange], by simp [State.markRange]⟩
  by_cases h : q = p
  · subst h
    simp [State.markRange]
  · simp [State.markRange, tget_tmod, h]

/-- The latch of a line and its view are set together (R146). -/
theorem State.setAttention_spec (s : State) (l : Line) (v : Bool) :
    (∀ k, (s.setAttention l v).line k = if k = l then { s.line l with attention := v } else s.line k) ∧
    (s.setAttention l v).lineTable.busOwner = s.lineTable.busOwner ∧
    (∀ k, tget (s.setAttention l v).notice.latchView k = if k = l then v else tget s.notice.latchView k) ∧
    (s.setAttention l v).notice = { s.notice with latchView := (s.setAttention l v).notice.latchView } := by
  refine ⟨fun k => ?_, by simp [State.setAttention, State.modLine], fun k => ?_, by simp [State.setAttention]⟩
  · simp [State.line, State.setAttention, State.modLine, tget_tmod]
  · simp [State.setAttention, tget_tset]

/-! ## The coefficient bank -/

/-- The targets of the selected cells are written; no current, and nothing else of the bank (R29). -/
theorem MixEngine.writeCells_spec (m : MixEngine) (sel : Contributor → Bus → Bool) (v : Nat) :
    m.writeCells sel v = { m with cells := (m.writeCells sel v).cells } ∧
    ∀ c b, tget (tget (m.writeCells sel v).cells c) b =
      if sel c b then aimed (tget (tget m.cells c) b) v else tget (tget m.cells c) b := by
  refine ⟨rfl, fun c b => ?_⟩
  simp [MixEngine.writeCells, aimed]

/-- The talk level targets of the selected lines are written, and nothing else of the bank (R31). -/
theorem MixEngine.writeTalkLevels_spec (m : MixEngine) (sel : Line → Bool) (v : Nat) :
    m.writeTalkLevels sel v = { m with talkLevel := (m.writeTalkLevels sel v).talkLevel } ∧
    ∀ l, tget (m.writeTalkLevels sel v).talkLevel l =
      if sel l then aimed (tget m.talkLevel l) v else tget m.talkLevel l := by
  refine ⟨rfl, fun l => ?_⟩
  simp [MixEngine.writeTalkLevels, aimed]

/-- Stored trim and trim duck of the selected lines are written with the trim target they define (R30), and nothing else of the
bank. -/
theorem MixEngine.writeTrims_spec (m : MixEngine) (sel : Line → Bool) (stored duck : Line → Nat) :
    m.writeTrims sel stored duck = { m with
      storedTrim := (m.writeTrims sel stored duck).storedTrim
      trimDuck := (m.writeTrims sel stored duck).trimDuck
      trim := (m.writeTrims sel stored duck).trim } ∧
    ∀ l, tget (m.writeTrims sel stored duck).storedTrim l = (if sel l then stored l else tget m.storedTrim l) ∧
      tget (m.writeTrims sel stored duck).trimDuck l = (if sel l then duck l else tget m.trimDuck l) ∧
      tget (m.writeTrims sel stored duck).trim l =
        if sel l then aimed (tget m.trim l) (stored l * duck l / 32768) else tget m.trim l := by
  refine ⟨rfl, fun l => ?_⟩
  simp [MixEngine.writeTrims, trimTarget, aimed]

/-- The write of one stored trim (R65). -/
theorem MixEngine.writeStoredTrim_spec (m : MixEngine) (l : Line) (v : Nat) :
    m.writeStoredTrim l v = { m with
      storedTrim := (m.writeStoredTrim l v).storedTrim, trim := (m.writeStoredTrim l v).trim } ∧
    ∀ k, tget (m.writeStoredTrim l v).storedTrim k = (if k = l then v else tget m.storedTrim k) ∧
      tget (m.writeStoredTrim l v).trim k =
        if k = l then aimed (tget m.trim k) (v * tget m.trimDuck k / 32768) else tget m.trim k := by
  have duck : (m.writeStoredTrim l v).trimDuck = m.trimDuck :=
    table_ext fun k => by simp [MixEngine.writeStoredTrim, MixEngine.writeTrims]
  constructor
  · rw [MixEngine.writeStoredTrim, (MixEngine.writeTrims_spec m _ _ _).1]
    exact congrArg (fun d => { m with
      storedTrim := (m.writeStoredTrim l v).storedTrim, trimDuck := d, trim := (m.writeStoredTrim l v).trim }) duck
  · intro k
    simp [MixEngine.writeStoredTrim, MixEngine.writeTrims, trimTarget, aimed]

/-- The writes of a slot taken (R100), which leave the stored trims as they stand. -/
theorem MixEngine.talkTaken_spec (m : MixEngine) (l : Line) (x : TalkSlot) (k : Line) :
    tget (m.talkTaken l x).storedTrim k = tget m.storedTrim k ∧
    tget (m.talkTaken l x).trimDuck k = (if k = l then x.duck else tget m.trimDuck k) ∧
    tget (m.talkTaken l x).trim k =
      (if k = l then aimed (tget m.trim k) (tget m.storedTrim k * x.duck / 32768) else tget m.trim k) ∧
    tget (m.talkTaken l x).talkLevel k = (if k = l then aimed (tget m.talkLevel k) x.gain else tget m.talkLevel k) ∧
    tget (m.talkTaken l x).lastTalk k = (if k = l then x.source else tget m.lastTalk k) := by
  simp [MixEngine.talkTaken, MixEngine.writeTalkLevels, MixEngine.writeTrims, trimTarget, aimed, tget_tset]

/-- The writes of slots cleared (R100), which leave the stored trims and the last talk sources as they stand. -/
theorem MixEngine.talkCleared_spec (m : MixEngine) (sel : Line → Bool) (k : Line) :
    tget (m.talkCleared sel).storedTrim k = tget m.storedTrim k ∧
    tget (m.talkCleared sel).trimDuck k = (if sel k then 32768 else tget m.trimDuck k) ∧
    tget (m.talkCleared sel).trim k = (if sel k then aimed (tget m.trim k) (tget m.storedTrim k) else tget m.trim k) ∧
    tget (m.talkCleared sel).talkLevel k = (if sel k then aimed (tget m.talkLevel k) 0 else tget m.talkLevel k) ∧
    (m.talkCleared sel).lastTalk = m.lastTalk := by
  simp [MixEngine.talkCleared, MixEngine.writeTalkLevels, MixEngine.writeTrims, trimTarget, aimed]

/-- The bank's part of the clean-up of R75 for the selected lines. -/
theorem MixEngine.cleaned_spec (m : MixEngine) (sel : Line → Bool) :
    (∀ c b, tget (tget (m.cleaned sel).cells c) b =
      if (Contributor.line? c).any sel = true then aimed (tget (tget m.cells c) b) 0 else tget (tget m.cells c) b) ∧
    (∀ l, tget (m.cleaned sel).storedTrim l = (if sel l then 32768 else tget m.storedTrim l) ∧
      tget (m.cleaned sel).trimDuck l = (if sel l then 32768 else tget m.trimDuck l) ∧
      tget (m.cleaned sel).trim l = (if sel l then aimed (tget m.trim l) 32768 else tget m.trim l) ∧
      tget (m.cleaned sel).talkLevel l = (if sel l then aimed (tget m.talkLevel l) 0 else tget m.talkLevel l)) ∧
    m.cleaned sel = { m with
      cells := (m.cleaned sel).cells, storedTrim := (m.cleaned sel).storedTrim, trimDuck := (m.cleaned sel).trimDuck
      trim := (m.cleaned sel).trim, talkLevel := (m.cleaned sel).talkLevel } := by
  have unity : (32768 : Nat) * 32768 / 32768 = 32768 := by norm_num
  refine ⟨fun c b => ?_, fun l => ?_, by
    simp only [MixEngine.cleaned, MixEngine.writeCells, MixEngine.writeTalkLevels, MixEngine.writeTrims]⟩
  · cases h : Contributor.line? c <;> simp [MixEngine.cleaned, MixEngine.writeCells, MixEngine.writeTalkLevels,
      MixEngine.writeTrims, aimed, h]
  · simp only [MixEngine.cleaned, MixEngine.writeCells, MixEngine.writeTalkLevels, MixEngine.writeTrims, trimTarget,
      aimed, tget_tmake, unity]
    cases sel l <;> simp

/-! ## Events and results -/

/-- The selected kinds are added and no kind is taken away (R147). -/
theorem NoticeUnit.raiseWhere_spec (n : NoticeUnit) (f : Port → Line → EventKind → Bool) :
    (∀ p l k, (tget (tget (n.raiseWhere f).events p) l).has k = ((tget (tget n.events p) l).has k || f p l k)) ∧
    n.raiseWhere f = { n with events := (n.raiseWhere f).events } := by
  refine ⟨fun p l k => ?_, rfl⟩
  cases k <;> simp [NoticeUnit.raiseWhere, EventSet.has]

/-- One kind is added for one port and line (R147). -/
theorem State.raise_spec (s : State) (q : Port) (l : Line) (k : EventKind) :
    EventsAdded s (s.raise q l k) (fun p i e => p == q && i == l && e == k) ∧
    (s.raise q l k).notice = { s.notice with events := (s.raise q l k).notice.events } := by
  simp only [State.raise, State.withNotice_notice]
  exact NoticeUnit.raiseWhere_spec s.notice fun p i e => p == q && i == l && e == k

/-- TALK-ENDED goes to the talk-slot holder unless it is the acting port (R77, R104). -/
theorem State.raiseTalkEnded_spec (s : State) (l : Line) (actor : Port) :
    EventsAdded s (s.raiseTalkEnded l actor) (fun p i e => e == .talkEnded && i == l && talkEndedTo s l actor == some p) ∧
    (s.raiseTalkEnded l actor).notice = { s.notice with events := (s.raiseTalkEnded l actor).notice.events } := by
  unfold State.raiseTalkEnded talkEndedTo
  cases (s.line l).talk with
  | none => exact ⟨fun p i e => by simp, rfl⟩
  | some t =>
    by_cases h : t.talker = actor
    · simp only [h, if_true]
      exact ⟨fun p i e => by simp, trivial⟩
    · simp only [h, if_false]
      refine ⟨fun p i e => ?_, (State.raise_spec s _ _ _).2⟩
      rw [(State.raise_spec s _ l .talkEnded).1]
      grind

/-- The slot of the port is DONE with the result unread, and the Notice Unit knows (R178, R149). -/
theorem State.complete_spec (s : State) (p : Port) (code : Byte) (args : List Byte) (r : Result) :
    (∀ q, (s.complete p code args r).port q =
      if q = p then { s.port p with slot := .done code args r, unread := true } else s.port q) ∧
    (s.complete p code args r).ports.freeze = s.ports.freeze ∧
    (∀ q, tget (s.complete p code args r).notice.unreadView q = if q = p then true else tget s.notice.unreadView q) ∧
    (s.complete p code args r).notice =
      { s.notice with unreadView := (s.complete p code args r).notice.unreadView } := by
  refine ⟨fun q => ?_, by simp [State.complete, State.modPort], fun q => ?_, by simp [State.complete]⟩
  · simp [State.port, State.complete, State.modPort, tget_tmod]
  · simp [State.complete, tget_tset]

/-- The slot of the port is WORKING with the unread mark clear, and the Notice Unit knows (R178). -/
theorem State.goWorking_spec (s : State) (p : Port) (code : Byte) (args : List Byte) :
    (∀ q, (s.goWorking p code args).port q =
      if q = p then { s.port p with slot := .working code args, unread := false } else s.port q) ∧
    (s.goWorking p code args).ports.freeze = s.ports.freeze ∧
    (∀ q, tget (s.goWorking p code args).notice.unreadView q = if q = p then false else tget s.notice.unreadView q) ∧
    (s.goWorking p code args).notice =
      { s.notice with unreadView := (s.goWorking p code args).notice.unreadView } := by
  refine ⟨fun q => ?_, by simp [State.goWorking, State.modPort], fun q => ?_, by simp [State.goWorking]⟩
  · simp [State.port, State.goWorking, State.modPort, tget_tmod]
  · simp [State.goWorking, tget_tset]

/-- A completion delivered to a port: its WORKING slot becomes DONE, another slot stays (R178, R180). -/
theorem State.deliver_spec (s : State) (p : Port) (r : Result) :
    (∀ q, (s.deliver p r).port q = if q = p then delivered (s.port p) r else s.port q) ∧
    (s.deliver p r).ports.freeze = s.ports.freeze ∧
    (∀ q, tget (s.deliver p r).notice.unreadView q =
      if q = p ∧ (s.port p).slot.isWorking = true then true else tget s.notice.unreadView q) ∧
    (s.deliver p r).notice = { s.notice with unreadView := (s.deliver p r).notice.unreadView } := by
  unfold State.deliver delivered
  cases h : (s.port p).slot with
  | working code args =>
    obtain ⟨h1, h2, h3, h4⟩ := State.complete_spec s p code args r
    exact ⟨h1, h2, fun q => by simp [h3, Slot.isWorking], h4⟩
  | empty => exact ⟨fun q => by split <;> simp_all, rfl, fun q => by simp [Slot.isWorking], rfl⟩
  | done code args x => exact ⟨fun q => by split <;> simp_all, rfl, fun q => by simp [Slot.isWorking], rfl⟩

/-! ## Players and groups -/

/-- The player ends with this record and its group is gone; the others stay (R129, R41). -/
theorem State.endPlayer_spec (s : State) (p : Port) (why : EndReason) (a : Nat) :
    (∀ q, (s.endPlayer p why a).player q = if q = p then endedPlayer why a else s.player q) ∧
    GroupDiscarded s (s.endPlayer p why a) p := by
  refine ⟨fun q => ?_, by simp [State.endPlayer], ?_, fun q h => ?_⟩
  · simp [State.endPlayer, State.player, State.setPlayer, Player.ended, endedPlayer, tget_tset]
  · simp [State.endPlayer]
  · simp [State.endPlayer, tget_tset, h]

/-- Every selected player that is not IDLE ends at its step address, its group gone (R140, R143). -/
theorem State.endPlayers_spec (s : State) (sel : Port → Bool) (why : EndReason) :
    (∀ q, (s.endPlayers sel why).player q =
        (if sel q = true ∧ (s.player q).state ≠ .idle then endedPlayer why (s.player q).addr else s.player q) ∧
      tget (s.endPlayers sel why).mix.staging q =
        if sel q = true ∧ (s.player q).state ≠ .idle then none else tget s.mix.staging q) ∧
    (s.endPlayers sel why).mix = { s.mix with staging := (s.endPlayers sel why).mix.staging } := by
  refine ⟨fun q => ?_, by simp [State.endPlayers]⟩
  by_cases h : (s.player q).state = .idle <;> cases hs : sel q <;>
    simp_all [State.endPlayers, State.player, Player.ended, endedPlayer]

/-- The groups that name what is named are gone, and their players ended LostLine (R40, R138). -/
theorem State.discard_spec (s : State) (named : Action → Bool) :
    GroupsLost s (s.discard named) named ∧
    (s.discard named).mix = { s.mix with staging := (s.discard named).mix.staging } := by
  refine ⟨fun q => ?_, by simp [State.discard]⟩
  cases h : s.groupNames named q <;> simp [State.discard, State.player, Player.ended, endedPlayer, h]

/-- A player past its step (R134 to R136). -/
theorem Player.goOn_spec (x : Player) : x.goOn = pastWait x := by
  unfold Player.goOn pastWait Player.ended endedPlayer
  split <;> rfl

/-- Every player that awaits the condition goes on (R135). -/
theorem State.tellAwaiting_spec (s : State) (l : Line) (cond : Condition) : AwaitingTold s (s.tellAwaiting l cond) l cond := by
  intro q
  cases h : (s.player q).state <;> simp_all [State.tellAwaiting, State.player, Player.goOn_spec]

/-- Every PAUSED player is told, and nothing else moves (R139). -/
theorem State.tellPaused_spec (s : State) :
    PausedTold s s.tellPaused ∧ s.tellPaused = { s with players := s.tellPaused.players } := by
  refine ⟨fun p => ?_, rfl⟩
  simp [State.tellPaused, State.player]

/-! ## The Frame Clock Unit -/

/-- The marker of a link A0 word is timed in the words of the statements (R190). -/
theorem FrameClock.timeMarker_spec (c : FrameClock) (rx : LineFrame) :
    c.timeMarker (frameMarker rx) = markerTimed c (signallingOf (tget rx 0)) := by
  unfold frameMarker markerTimed FrameClock.timeMarker Config.nominalPeriod
  dsimp only
  split <;> simp_all

/-- The measured length of an interval in the words of the statements (R167, R190). -/
theorem State.measured_spec (s : State) (r : RefId) (n : Nat) : s.measured r n = measuredLength s r n := by
  have every : ∀ r : RefId, r = 0 ∨ r = 1 ∨ r = 2 ∨ r = 3 := by decide
  obtain rfl | rfl | rfl | rfl := every r <;> rfl

/-- The missing periods of LNK that are due, in the words of the statements (R167, R190). -/
theorem State.missingDue_spec (s : State) : s.missingDue = missingLeft s := rfl

/-- A missing period of LNK leaves one less due (R167). -/
theorem State.missed_missingDue (s : State) : (s.missed RefId.lnk).missingDue = s.missingDue - 1 := by
  have kept : ∀ t : State, (t.takeLockOrLoss RefId.lnk).clock.marker = t.clock.marker ∧
      (t.takeLockOrLoss RefId.lnk).clock.sinceMarker = t.clock.sinceMarker ∧
      (t.takeLockOrLoss RefId.lnk).clock.missed = t.clock.missed := by
    intro t
    unfold State.takeLockOrLoss State.lockReference State.loseReference State.flagReference State.setRef
    dsimp only
    (repeat' split) <;> simp
  obtain ⟨h1, h2, h3⟩ := kept s
  simp [State.missed, State.missingDue, State.setRef, h1, h2, h3]
  omega

/-- After all of LNK's missing periods that are due, none is (R167). -/
theorem State.missMany_missingDue (s : State) : (s.missMany s.missingDue).missingDue = 0 := by
  have all : ∀ (n : Nat) (t : State), (t.missMany n).missingDue = t.missingDue - n := by
    intro n
    induction n with
    | zero => intro t; simp [State.missMany]
    | succ n ih => intro t; rw [State.missMany, ih, State.missed_missingDue]; omega
  rw [all, Nat.sub_self]

/-- A sound period moves the rate of a generator that follows the reference, and nothing else but the free-value counter: to the
reference's length at the end of the pull and after it, until then to some rate between the two (R169, R170). -/
theorem State.followPeriod_spec (s : State) (r : RefId) :
    (s.followPeriod r).clock = { s.clock with rate := (s.followPeriod r).clock.rate } ∧
    if r = s.clock.selected ∧ s.clock.generator = .following then
      if s.clock.pull ≤ 2 then (s.followPeriod r).clock.rate = some (s.ref r).length ∧ (s.followPeriod r).free = s.free
      else ∃ rate, (s.followPeriod r).clock.rate = some rate ∧
        min (s.clock.rate.getD (s.ref r).length) (s.ref r).length ≤ rate ∧
        rate ≤ max (s.clock.rate.getD (s.ref r).length) (s.ref r).length
    else s.followPeriod r = s := by
  unfold State.followPeriod Config.pullLast between
  (repeat' split) <;> simp_all
  omega

/-! ## Notice lines and responses -/

/-- The driven lines follow their conditions, and nothing else of the Notice Unit moves (R149). -/
theorem State.driveNotices_spec (s : State) : NoticeDriven s s.driveNotices := by
  refine ⟨rfl, fun q => ?_⟩
  simp [State.driveNotices, State.noticeLevel, State.unreadResult, State.eventsPending, State.watchedAttention,
    State.referenceChange]

/-- A response is the status byte and the command's bytes; the notice lines follow (R176, R149). -/
theorem State.respond_spec (s : State) (p : Port) (more : List Byte) :
    (∀ q, (s.respond p more).port q =
      if q = p then { s.port p with response := s.statusByte p :: more } else s.port q) ∧
    (s.respond p more).ports.freeze = s.ports.freeze ∧ NoticeDriven s (s.respond p more) := by
  obtain ⟨h1, h2⟩ := State.modPort_spec s p fun x => { x with response := s.statusByte p :: more }
  obtain ⟨h3, h4⟩ := State.driveNotices_spec (s.modPort p fun x => { x with response := s.statusByte p :: more })
  exact ⟨h1, h2, h3, h4⟩

/-- The status byte does not depend on the response bytes or the levels of the notice lines (R177). -/
theorem State.statusByte_respond (s : State) (p : Port) (more : List Byte) :
    (s.respond p more).statusByte p = s.statusByte p := by
  have slot : ((s.respond p more).port p).slotCode = (s.port p).slotCode := by
    rw [(State.respond_spec s p more).1, if_pos rfl]
    rfl
  have flag : ((s.respond p more).port p).writeNotTaken = (s.port p).writeNotTaken := by
    rw [(State.respond_spec s p more).1, if_pos rfl]
  simp only [State.statusByte, slot, flag, (State.respond_spec s p more).2.1, State.respond_frame, State.eventsPending,
    State.watchedAttention, State.referenceChange]
  simp [State.respond, State.driveNotices]

/-! ## WRITE-TASK -/

/-- A held port takes no task (R184). -/
theorem State.writeTask_held {s : State} {p : Port} (h : (s.port p).held = true) (code : Byte) (args : List Byte)
    (ok changing : Bool) (body : State → TaskEnd) : s.writeTask p code args ok changing body = s := by
  simp [State.writeTask, h]

/-- A WORKING slot takes no task and sets the write-not-taken flag (R177). -/
theorem State.writeTask_working {s : State} {p : Port} (h : (s.port p).held = false)
    (w : (s.port p).slot.isWorking = true) (code : Byte) (args : List Byte) (ok changing : Bool) (body : State → TaskEnd) :
    s.writeTask p code args ok changing body = (s.modPort p fun x => { x with writeNotTaken := true }).respond p [] := by
  simp [State.writeTask, h, w]

/-- A ready port takes the task: it passes intake, is carried out, and its end goes into the slot (R178, R179). -/
theorem State.writeTask_ready {s : State} {p : Port} (h : Ready s p) (code : Byte) (args : List Byte) (ok changing : Bool)
    (body : State → TaskEnd) :
    let e := (s.modPort p fun x => { x with writeNotTaken := false }).intake ok changing body
    s.writeTask p code args ok changing body = (e.state.settle p code args e.result).respond p [] := by
  simp [State.writeTask, h.1, h.2]

/-- The intake of a task of the right length, where FREEZE does not hold it, is the block's answer (R179). -/
theorem State.intake_passes (s : State) {ok changing : Bool} (hok : ok = true) (hf : changing = false ∨ s.ports.freeze = false)
    (body : State → TaskEnd) : s.intake ok changing body = body s := by
  rcases hf with h | h <;> simp [State.intake, hok, h]

/-! ## Operands -/

/-- The number of a line reads back as that line. -/
@[simp] theorem lineArg_num (l : Line) : lineArg (num l).toNat = some l := by revert l; decide

/-- The number of a source reads back as that source. -/
@[simp] theorem sourceArg_num (x : Source) : sourceArg (num x).toNat = some x := by revert x; decide

/-- The number of a bus reads back as that bus. -/
@[simp] theorem busArg_num (b : Bus) : busArg (num b).toNat = some b := by revert b; decide

/-- The number of a contributor reads back as that contributor. -/
@[simp] theorem contributorArg_num (c : Contributor) : contributorArg (num c).toNat = some c := by revert c; decide

/-- The number of a port reads back as that port. -/
@[simp] theorem portArg_num0 (p : Port) : portArg (num0 p).toNat = some p := by revert p; decide

/-- The number of a reference reads back as that reference. -/
@[simp] theorem refArg_num0 (r : RefId) : refArg (num0 r).toNat = some r := by revert r; decide

/-- A yes-or-no byte reads back. -/
@[simp] theorem settingArg_flagByte (v : Bool) : settingArg (flagByte v).toNat = some v := by revert v; decide

/-- The bus byte of a placement reads back. -/
@[simp] theorem placeBusArg_busByte (b : Option Bus) : placeBusArg (busByte b).toNat = some b := by revert b; decide

/-- The hold byte of a placement reads back. -/
@[simp] theorem holdArg_holdByte (x : Option Source) : holdArg (holdByte x).toNat = some x := by revert x; decide

/-- An action passes the ownership checks exactly where the port owns what it needs (R43, R64, R66, R68). -/
theorem State.actionDenied_eq_none (s : State) (p : Port) (a : Action) : s.actionDenied p a = none ↔ Owns s p a := by
  cases a with
  | cell c b v =>
    simp only [State.actionDenied, State.cellDenied, State.busDenied, State.lineDenied, Owns]
    by_cases hb : s.busOwner b = p
    · simp only [hb, if_true, true_and]
      cases hl : Contributor.line? c with
      | none =>
        simp only [true_iff]
        rintro l rfl
        simp at hl
      | some k =>
        rw [contributor_of_line? hl]
        constructor
        · intro h l e
          have : some k = some l := by rw [← line?_contributor k, ← line?_contributor l, e]
          cases this
          simpa using h
        · intro h
          simp [h k rfl]
    · simp [hb]
  | trim l v => simp [State.actionDenied, State.lineDenied, Owns]
  | place l b h =>
    simp only [State.actionDenied, State.placeDenied, State.busDenied, State.lineDenied, Owns]
    by_cases hl : (s.line l).owner = some p
    · cases b <;> simp [hl]
    · simp [hl]
  | tone l on => simp [State.actionDenied, State.lineDenied, Owns]

/-! ## The frame event -/

/-- A ramp step (R32). -/
theorem Ramp.step_spec (r : Ramp) : r.step = ⟨r.target, stepped r.current r.target⟩ := by
  unfold Ramp.step stepped
  grind

/-- Rescaling and saturation in the words of the statements (R12, R2). -/
theorem rescale_eq (v : Int) : rescale v = rounded v := by
  unfold rescale rounded
  rw [Int.fdiv_eq_ediv_of_nonneg _ (by decide)]

theorem sat_eq (v : Int) : sat v = saturated v := by
  unfold sat saturated
  grind

/-- Saturation lands in the sample range (R2). -/
theorem sat_range (v : Int) : -8388608 ≤ sat v ∧ sat v ≤ 8388607 := by
  unfold sat
  grind

end Sys2Proof.Machine
end

