-- ==== Sys2Proof/Laws/Memory.lean ====
section
/-! SUPPORT. The laws of the Cue Store's memory: every operation keeps the canonical form; reading after writing. -/

namespace Sys2Proof.Machine

open Sys2Proof

theorem Memory.wfAbove_mono {i j : Nat} (h : i ≤ j) (m : Memory) (hm : Memory.wfAbove j m = true) :
    Memory.wfAbove i m = true := by
  cases m with
  | nil => rfl
  | cons c rest =>
    simp only [Memory.wfAbove, Bool.and_eq_true, decide_eq_true_eq] at hm ⊢
    exact ⟨⟨by omega, hm.1.2⟩, hm.2⟩

theorem Memory.wf_of_wfAbove {i : Nat} {m : Memory} (h : Memory.wfAbove i m = true) : Memory.wf m = true := by
  cases m with
  | nil => rfl
  | cons c rest =>
    simp only [Memory.wfAbove, Memory.wf, Bool.and_eq_true] at h ⊢
    exact ⟨h.1.2, h.2⟩

theorem Memory.wfAbove_write (m : Memory) : ∀ {i k : Nat} (v : Byte), Memory.wfAbove k m = true → k < i →
    Memory.wfAbove k (Memory.write m i v) = true := by
  induction m with
  | nil =>
    intro i k v _ h
    by_cases hv : v = 0#8 <;> simp [Memory.write, Memory.wfAbove, hv, h]
  | cons c rest ih =>
    intro i k v hm hk
    simp only [Memory.wfAbove, Bool.and_eq_true, decide_eq_true_eq] at hm
    obtain ⟨⟨hka, hb⟩, hrest⟩ := hm
    rw [Memory.write]
    split
    · rename_i hlt
      simp [Memory.wfAbove, hka, ih v hrest hlt]
      simpa using hb
    · split
      · rename_i _ heq
        split
        · exact Memory.wfAbove_mono (by omega) rest hrest
        · rename_i hv
          subst heq
          have hv' : ¬ v = 0#8 := hv
          simp [Memory.wfAbove, hk, hv', hrest]
      · split
        · simp [Memory.wfAbove, hka, hrest]
          simpa using hb
        · rename_i hlt hne hv
          have : i < c.1 := by omega
          have hv' : ¬ v = 0#8 := hv
          have hb' : ¬ c.2 = 0#8 := by simpa using hb
          simp [Memory.wfAbove, hk, hv', this, hrest, hb']

/-- A write keeps the canonical form. -/
theorem Memory.wf_write (m : Memory) (i : Nat) (v : Byte) (h : Memory.wf m = true) : Memory.wf (Memory.write m i v) = true := by
  cases m with
  | nil => by_cases hv : v = 0#8 <;> simp [Memory.write, Memory.wf, Memory.wfAbove, hv]
  | cons c rest =>
    simp only [Memory.wf, Bool.and_eq_true] at h
    obtain ⟨hb, hrest⟩ := h
    rw [Memory.write]
    split
    · rename_i hlt
      simp only [Memory.wf, Bool.and_eq_true]
      exact ⟨hb, Memory.wfAbove_write rest v hrest hlt⟩
    · split
      · rename_i _ heq
        split
        · exact Memory.wf_of_wfAbove hrest
        · rename_i hv
          subst heq
          have hv' : ¬ v = 0#8 := hv
          simp [Memory.wf, hv', hrest]
      · split
        · simp only [Memory.wf, Bool.and_eq_true]
          exact ⟨hb, hrest⟩
        · rename_i hlt hne hv
          have : i < c.1 := by omega
          have hv' : ¬ v = 0#8 := hv
          have hb' : ¬ c.2 = 0#8 := by simpa using hb
          simp [Memory.wf, Memory.wfAbove, hv', this, hrest, hb']

/-- A run of writes keeps the canonical form. -/
theorem Memory.wf_writeBytes (bytes : List Byte) : ∀ (m : Memory) (i : Nat), Memory.wf m = true →
    Memory.wf (Memory.writeBytes m i bytes) = true := by
  induction bytes with
  | nil => intro m i h; exact h
  | cons v rest ih => intro m i h; exact ih _ _ (Memory.wf_write m i v h)

theorem Memory.read_of_wfAbove (m : Memory) : ∀ {k i : Nat}, Memory.wfAbove k m = true → i ≤ k → Memory.read m i = 0 := by
  induction m with
  | nil => intro k i _ _; rfl
  | cons c rest ih =>
    intro k i h hi
    simp only [Memory.wfAbove, Bool.and_eq_true, decide_eq_true_eq] at h
    have : c.1 ≠ i := by omega
    simp only [Memory.read, this, if_false]
    exact ih h.2 (by omega)

/-- A byte read after a write to the same address is the byte written. -/
theorem Memory.read_write_self (m : Memory) (i : Nat) (v : Byte) (h : Memory.wf m = true) :
    Memory.read (Memory.write m i v) i = v := by
  suffices H : ∀ (m : Memory), (∀ c ∈ m.head?, Memory.wfAbove c.1 m.tail = true) →
      Memory.read (Memory.write m i v) i = v from
    H m (by cases m with
      | nil => simp
      | cons c rest => simp only [Memory.wf, Bool.and_eq_true] at h; simpa using h.2)
  intro m
  induction m with
  | nil => intro _; by_cases hv : v = 0#8 <;> simp [Memory.write, Memory.read, hv]
  | cons c rest ih =>
    intro hc
    have hc : Memory.wfAbove c.1 rest = true := by simpa using hc
    rw [Memory.write]
    split
    · rename_i hlt
      have : c.1 ≠ i := by omega
      simp only [Memory.read, this, if_false]
      refine ih ?_
      cases rest with
      | nil => simp
      | cons d rest =>
        simp only [Memory.wfAbove, Bool.and_eq_true] at hc
        simpa using hc.2
    · split
      · rename_i _ heq
        split
        · rename_i hv
          rw [hv]
          exact Memory.read_of_wfAbove rest hc (by omega)
        · simp [Memory.read]
      · split
        · rename_i hlt hne hv
          rw [hv]
          simp only [Memory.read, hne, if_false]
          exact Memory.read_of_wfAbove rest hc (by omega)
        · simp [Memory.read]

/-- A byte read after a write elsewhere is what it was. -/
theorem Memory.read_write_of_ne (m : Memory) (i j : Nat) (v : Byte) (h : j ≠ i) :
    Memory.read (Memory.write m i v) j = Memory.read m j := by
  have h' : i ≠ j := fun e => h e.symm
  induction m with
  | nil => by_cases hv : v = 0#8 <;> simp [Memory.write, Memory.read, hv, h']
  | cons c rest ih =>
    rw [Memory.write]
    split
    · simp only [Memory.read, ih]
    · split
      · rename_i _ heq
        have hc : c.1 ≠ j := by omega
        split <;> simp [Memory.read, hc, h']
      · split <;> simp [Memory.read, h']

/-- A byte outside the addresses of a run of writes is what it was. -/
theorem Memory.read_writeBytes_outside (bytes : List Byte) : ∀ (m : Memory) (i j : Nat), j < i ∨ i + bytes.length ≤ j →
    Memory.read (Memory.writeBytes m i bytes) j = Memory.read m j := by
  induction bytes with
  | nil => intro m i j _; rfl
  | cons v rest ih =>
    intro m i j h
    simp only [List.length_cons] at h
    rw [Memory.writeBytes, ih _ _ _ (by omega), Memory.read_write_of_ne _ _ _ _ (by omega)]

/-- Byte `k` of a run of writes is read back where it was written. -/
theorem Memory.read_writeBytes_inside (bytes : List Byte) : ∀ (m : Memory) (i k : Nat), Memory.wf m = true →
    (h : k < bytes.length) → Memory.read (Memory.writeBytes m i bytes) (i + k) = bytes[k] := by
  induction bytes with
  | nil => intro m i k _ h; simp at h
  | cons v rest ih =>
    intro m i k hm h
    rw [Memory.writeBytes]
    cases k with
    | zero =>
      rw [Memory.read_writeBytes_outside rest _ _ _ (by omega)]
      simpa using Memory.read_write_self m i v hm
    | succ k =>
      have := ih (Memory.write m i v) (i + 1) k (Memory.wf_write m i v hm) (by simpa using h)
      simpa [Nat.add_assoc, Nat.add_comm, Nat.add_left_comm] using this

end Sys2Proof.Machine
end

