-- ==== Sys2Proof/Laws/Moves.lean ====
section
/-! SUPPORT. The effect of the shared operations that act on several blocks at once: a staged action, the moves of a talk slot, a
change of a line's owner, the end of a wait. -/

namespace Sys2Proof.Machine

open Sys2Proof Sys2Proof.Safety

/-- A staged action's effect is that of its mirrored task (R42, R63, R65, R67). -/
theorem State.performAction_spec (s : State) (a : Action) : ActionDone s (s.performAction a) a := by
  cases a with
  | cell c b v =>
    refine ⟨⟨?_, fun c' b' => ?_⟩, by simp [State.performAction]⟩
    · simp [State.performAction, MixEngine.writeCells]
    · simp [State.performAction, MixEngine.writeCells, aimed]
  | trim l v =>
    have h := MixEngine.writeStoredTrim_spec s.mix l v
    simp only [ActionDone, TrimWritten, State.performAction, State.withMix_mix, State.withMix_lineTable]
    exact ⟨h, trivial⟩
  | place l bus hold =>
    obtain ⟨h1, h2⟩ := State.modLine_spec s l fun r => r.placedOn bus hold
    refine ⟨⟨⟨?_, fun k hk => ?_⟩, ?_⟩, by simp [State.performAction]⟩
    · simp [State.performAction, State.modLine]
    · simp [State.performAction, h1, hk]
    · simp only [State.performAction, h1, if_true]
      cases bus <;> cases hold <;> simp [LineRec.placedOn]
  | tone l on =>
    obtain ⟨h1, h2⟩ := State.modLine_spec s l fun r => { r with tone := on }
    refine ⟨⟨⟨?_, fun k hk => ?_⟩, ?_⟩, by simp [State.performAction]⟩
    · simp [State.performAction, State.modLine]
    · simp [State.performAction, h1, hk]
    · simp [State.performAction, h1]

/-- A talk slot set with the writes of R100. -/
theorem State.setTalk_spec (s : State) (l : Line) (x : TalkSlot) :
    OnlyLine s (s.setTalk l x) l ∧ (s.setTalk l x).line l = { s.line l with talk := some x } ∧
    TalkWritten s (s.setTalk l x) l x.gain x.duck (some x.source) := by
  obtain ⟨h1, h2⟩ := State.modLine_spec s l fun r => { r with talk := some x }
  have hl : ∀ k, (s.setTalk l x).line k = if k = l then { s.line l with talk := some x } else s.line k := fun k => by
    rw [← h1 k]
    simp [State.setTalk, State.line]
  have hm : (s.setTalk l x).mix = s.mix.talkTaken l x := by simp [State.setTalk]
  have hs : (s.mix.talkTaken l x).storedTrim = s.mix.storedTrim :=
    table_ext fun k => (MixEngine.talkTaken_spec s.mix l x k).1
  refine ⟨⟨by simp [State.setTalk, State.modLine], fun k hk => by rw [hl, if_neg hk]⟩, by rw [hl, if_pos rfl], ?_, fun k => ?_⟩
  · rw [hm]
    simp only [MixEngine.talkTaken, MixEngine.writeTalkLevels, MixEngine.writeTrims] at hs ⊢
    rw [hs]
  · rw [hm]
    obtain ⟨-, h4, h5, h6, h7⟩ := MixEngine.talkTaken_spec s.mix l x k
    exact ⟨h4, h5, h6, by simpa using h7⟩

/-- The talk slot of one line cleared with the writes of R100. -/
theorem State.clearTalk_spec (s : State) (l : Line) :
    OnlyLine s (s.clearTalks fun k => k == l) l ∧
    (s.clearTalks fun k => k == l).line l = { s.line l with talk := none } ∧
    TalkWritten s (s.clearTalks fun k => k == l) l 0 32768 none := by
  obtain ⟨h1, h2⟩ := State.mapLines_spec s fun k r => if k == l then { r with talk := none } else r
  have hl : ∀ k, (s.clearTalks fun k => k == l).line k = if k == l then { s.line k with talk := none } else s.line k :=
    fun k => by
      rw [← h1 k]
      simp [State.clearTalks, State.line]
  have hm : (s.clearTalks fun k => k == l).mix = s.mix.talkCleared fun k => k == l := by simp [State.clearTalks]
  have hs : (s.mix.talkCleared fun k => k == l).storedTrim = s.mix.storedTrim :=
    table_ext fun k => (MixEngine.talkCleared_spec s.mix _ k).1
  refine ⟨⟨by simp [State.clearTalks, State.mapLines], fun k hk => by simp [hl, hk]⟩, by simp [hl], ?_, fun k => ?_⟩
  · rw [hm]
    simp only [MixEngine.talkCleared, MixEngine.writeTalkLevels, MixEngine.writeTrims] at hs ⊢
    rw [hs]
  · rw [hm]
    obtain ⟨-, h4, h5, h6, h7⟩ := MixEngine.talkCleared_spec s.mix (fun k => k == l) k
    refine ⟨by simpa using h4, ?_, by simpa using h6, by simp [h7]⟩
    rw [h5]
    simp

/-- A port leaves a waiter set without becoming the owner, and its CLAIM ends (R82). -/
theorem State.endWait_spec (s : State) (l : Line) (p : Port) (why : Reason) :
    OnlyLine s (s.endWait l p why) l ∧
    (s.endWait l p why).line l = { s.line l with waiters := tset (s.line l).waiters p none } ∧
    (∀ q, (s.endWait l p why).port q = if q = p then delivered (s.port p) (ends .ended why (portDetail (s.line l).owner))
      else s.port q) ∧
    (s.endWait l p why).ports.freeze = s.ports.freeze ∧
    (∀ q, tget (s.endWait l p why).notice.unreadView q =
      if q = p ∧ (s.port p).slot.isWorking = true then true else tget s.notice.unreadView q) ∧
    (s.endWait l p why).notice = { s.notice with unreadView := (s.endWait l p why).notice.unreadView } := by
  obtain ⟨h1, h2⟩ := State.modLine_spec s l fun r => { r with waiters := tset r.waiters p none }
  obtain ⟨d1, d2, d3, d4⟩ := State.deliver_spec (s.modLine l fun r => { r with waiters := tset r.waiters p none }) p
    (Result.plain .ended why (portDetail (s.line l).owner))
  have hp : ∀ q, (s.modLine l fun r => { r with waiters := tset r.waiters p none }).port q = s.port q := fun q => by
    simp [State.port]
  have hl : ∀ k, (s.endWait l p why).line k =
      if k = l then { s.line l with waiters := tset (s.line l).waiters p none } else s.line k := fun k => by
    rw [← h1 k]
    simp [State.endWait, State.line]
  refine ⟨⟨by simp [State.endWait, State.modLine], fun k hk => by rw [hl, if_neg hk]⟩, by rw [hl, if_pos rfl], ?_, ?_, ?_, ?_⟩
  · intro q
    rw [State.endWait, d1, hp, hp]
    rfl
  · simpa [State.endWait] using d2
  · intro q
    rw [State.endWait, d3, hp]
    simp
  · rw [State.endWait, d4]
    simp

/-- A change of a line's owner: the clean-up of R75 with the latch as it stood, TALK-ENDED to the talk-slot holder unless it acted
(R77), and the new owner's waiting CLAIM completed with the previous owner in the detail (R82). -/
theorem State.changeOwner_spec (s : State) (l : Line) (prev : Port) (new : Option Port) (actor : Port) :
    let t := s.changeOwner l prev new actor
    let told : Port → Prop := fun q => new = some q ∧ (tget (s.line l).waiters q).isSome = true
    CleanedUp s t l new ∧ (t.line l).attention = (s.line l).attention ∧
    EventsAdded s t (fun q k e => e == .talkEnded && k == l && talkEndedTo s l actor == some q) ∧
    t.notice = { s.notice with events := t.notice.events, unreadView := t.notice.unreadView } ∧
    (∀ q, (told q → t.port q = delivered (s.port q) (ends .done .none prev.val)) ∧ (¬ told q → t.port q = s.port q)) ∧
    t.ports.freeze = s.ports.freeze ∧
    ∀ q, (told q ∧ (s.port q).slot.isWorking = true → tget t.notice.unreadView q = true) ∧
      (¬ (told q ∧ (s.port q).slot.isWorking = true) → tget t.notice.unreadView q = tget s.notice.unreadView q) := by
  intro t told
  obtain ⟨e1, e2⟩ := State.raiseTalkEnded_spec s l actor
  let u : State := (((s.raiseTalkEnded l actor).modLine l fun r => r.cleaned new).withMix
    (s.mix.cleaned fun k => k == l)).discard (Action.namesLine l)
  have hgroups : ∀ q, ((((s.raiseTalkEnded l actor).modLine l fun r => r.cleaned new).withMix
      (s.mix.cleaned fun k => k == l)).groupNames (Action.namesLine l) q) = s.groupNames (Action.namesLine l) q := fun q => by
    simp [State.groupNames, MixEngine.cleaned, MixEngine.writeCells, MixEngine.writeTalkLevels, MixEngine.writeTrims]
  have ht : t = match new.filter fun q => (tget (s.line l).waiters q).isSome with
      | some q => u.deliver q (Result.plain .done .none prev.val)
      | none => u := by
    simp only [t, u, State.changeOwner, State.modLine_frame, State.raiseTalkEnded_frame]
    cases new.filter fun q => (tget (s.line l).waiters q).isSome <;> rfl
  have hu : u.ports = s.ports ∧ u.notice = (s.raiseTalkEnded l actor).notice := by simp [u]
  have keep : t.lineTable = u.lineTable ∧ t.mix = u.mix ∧ t.players = u.players := by
    rw [ht]
    cases new.filter fun q => (tget (s.line l).waiters q).isSome <;> simp
  obtain ⟨d1, d2⟩ := State.discard_spec (((s.raiseTalkEnded l actor).modLine l fun r => r.cleaned new).withMix
    (s.mix.cleaned fun k => k == l)) (Action.namesLine l)
  obtain ⟨m1, m2⟩ := State.modLine_spec (s.raiseTalkEnded l actor) l fun r => r.cleaned new
  obtain ⟨c1, c2, c3⟩ := MixEngine.cleaned_spec s.mix fun k => k == l
  have hline : ∀ k, t.line k = if k = l then (s.line l).cleaned new else s.line k := fun k => by
    have := m1 k
    simp only [State.line, State.raiseTalkEnded_frame] at this ⊢
    rw [keep.1, ← this]
    simp [u]
  have hmix : t.mix = { s.mix.cleaned (fun k => k == l) with staging := t.mix.staging } := by
    rw [keep.2.1]
    simpa using d2
  have hlost : GroupsLost s t (Action.namesLine l) := fun q => by
    obtain ⟨g1, g2⟩ := d1 q
    rw [hgroups q] at g1 g2
    constructor
    · rw [keep.2.1, g1]
      simp [MixEngine.cleaned, MixEngine.writeCells, MixEngine.writeTalkLevels, MixEngine.writeTrims]
    · simp only [State.player] at g2 ⊢
      rw [keep.2.2, g2]
      simp
  have hdeliver : (∀ q, (told q → t.port q = delivered (s.port q) (ends .done .none prev.val)) ∧
      (¬ told q → t.port q = s.port q)) ∧ t.ports.freeze = s.ports.freeze ∧
      (∀ q, (told q ∧ (s.port q).slot.isWorking = true → tget t.notice.unreadView q = true) ∧
        (¬ (told q ∧ (s.port q).slot.isWorking = true) → tget t.notice.unreadView q = tget s.notice.unreadView q)) ∧
      t.notice = { u.notice with unreadView := t.notice.unreadView } := by
    have hp : ∀ q, u.port q = s.port q := fun q => by simp [State.port, hu.1]
    have hv : ∀ q, tget u.notice.unreadView q = tget s.notice.unreadView q := fun q => by rw [hu.2, e2]
    rw [ht]
    cases hn : new.filter fun q => (tget (s.line l).waiters q).isSome with
    | none =>
      have none_told : ∀ q, ¬ told q := fun q hq => by
        simp [hq.1, Option.filter, hq.2] at hn
      exact ⟨fun q => ⟨fun h => absurd h (none_told q), fun _ => hp q⟩, by rw [hu.1],
        fun q => ⟨fun h => absurd h.1 (none_told q), fun _ => hv q⟩, rfl⟩
    | some p =>
      obtain ⟨hp1, hp2⟩ := Option.filter_eq_some_iff.1 hn
      obtain ⟨x1, x2, x3, x4⟩ := State.deliver_spec u p (Result.plain .done .none prev.val)
      have told_iff : ∀ q, told q ↔ q = p := fun q => by
        constructor
        · intro h
          have := h.1.symm.trans hp1
          simpa using this
        · rintro rfl
          exact ⟨hp1, hp2⟩
      refine ⟨fun q => ?_, by rw [x2, hu.1], fun q => ?_, x4⟩
      · simp only [told_iff, x1, hp]
        exact ⟨fun h => by subst h; simp [ends, Result.plain], fun h => by simp [h]⟩
      · simp only [told_iff, x3, hp, hv]
        constructor
        · rintro ⟨rfl, h⟩
          simp [h]
        · intro h
          rw [if_neg]
          rintro ⟨rfl, h2⟩
          exact h ⟨rfl, h2⟩
  obtain ⟨p1, p2, p3, p4⟩ := hdeliver
  refine ⟨⟨?_, fun q => ?_, ⟨?_, fun k hk => ?_⟩, ?_, fun c b => ?_, fun k => ?_, hlost⟩, ?_, fun q k e => ?_, ?_, p1, p2, p3⟩
  · rw [hline l, if_pos rfl]
    cases new <;> simp [LineRec.cleaned]
  · rw [hline l, if_pos rfl]
    cases new with
    | none => simp [LineRec.cleaned]
    | some p => simp [LineRec.cleaned, tget_tset, eq_comm]
  · rw [keep.1]
    simp [u, State.modLine]
  · rw [hline k, if_neg hk]
  · rw [hmix]
    simp only [MixEngine.cleaned, MixEngine.writeCells, MixEngine.writeTalkLevels, MixEngine.writeTrims]
  · rw [hmix]
    simp only [c1 c b]
    cases hc : Contributor.line? c with
    | none =>
      have : c ≠ Line.contributor l := by
        rintro rfl
        simp at hc
      simp [this]
    | some k =>
      rw [contributor_of_line? hc]
      by_cases hk : k = l
      · simp [hk]
      · have : Line.contributor k ≠ Line.contributor l := fun e => hk (by
          have : some k = some l := by rw [← line?_contributor k, ← line?_contributor l, e]
          simpa using this)
        simp [hk, this]
  · rw [hmix]
    simpa using c2 k
  · rw [hline l, if_pos rfl]
    rfl
  · rw [p4, hu.2]
    exact e1 q k e
  · rw [p4, hu.2, e2]

end Sys2Proof.Machine
end

