-- ==== Sys2Proof/Laws/Tasks.lean ====
section
/-! SUPPORT. What the end of a WRITE-TASK does, once for all tasks: a completed one, one that goes on, and a refused one. -/

namespace Sys2Proof.Machine

open Sys2Proof Sys2Proof.Safety

/-- The state in which a taken task reaches its block: only the write-not-taken flag is cleared (R177). -/
def State.taken (s : State) (p : Port) : State := s.modPort p fun x => { x with writeNotTaken := false }

/-- A taken task finds every block as it was. -/
@[simp] theorem State.taken_frame (s : State) (p : Port) :
    (s.taken p).lineTable = s.lineTable ∧ (s.taken p).mix = s.mix ∧ (s.taken p).cue = s.cue ∧
    (s.taken p).players = s.players ∧ (s.taken p).notice = s.notice ∧ (s.taken p).meter = s.meter ∧
    (s.taken p).clock = s.clock ∧ (s.taken p).free = s.free ∧ (s.taken p).pending = s.pending := by
  simp [State.taken]

/-- The ports a taken task finds. -/
theorem State.taken_port (s : State) (p : Port) :
    (∀ q, (s.taken p).port q = if q = p then { s.port p with writeNotTaken := false } else s.port q) ∧
    (s.taken p).ports.freeze = s.ports.freeze :=
  State.modPort_spec s p _

/-- A taken task finds every line as it was. -/
@[simp] theorem State.taken_line (s : State) (p : Port) (l : Line) : (s.taken p).line l = s.line l := by simp [State.line]

/-- A taken task finds every bus owner as it was. -/
@[simp] theorem State.taken_busOwner (s : State) (p : Port) (b : Bus) : (s.taken p).busOwner b = s.busOwner b := by
  simp [State.busOwner]

/-- A taken task finds every player as it was. -/
@[simp] theorem State.taken_player (s : State) (p q : Port) : (s.taken p).player q = s.player q := by simp [State.player]

/-- A taken task finds every loader as it was. -/
@[simp] theorem State.taken_loader (s : State) (p q : Port) : (s.taken p).loader q = s.loader q := by simp [State.loader]

/-- A taken task finds every reference record as it was. -/
@[simp] theorem State.taken_ref (s : State) (p : Port) (r : RefId) : (s.taken p).ref r = s.ref r := by simp [State.ref]

/-- The ownership checks of a taken task read the state as it was. -/
@[simp] theorem State.taken_actionDenied (s : State) (p q : Port) (a : Action) :
    (s.taken p).actionDenied q a = s.actionDenied q a := by
  cases a <;> simp [State.actionDenied, State.cellDenied, State.placeDenied, State.lineDenied, State.busDenied]

/-- A WRITE-TASK of the right length on a ready port, where FREEZE does not hold it, is its block's answer put into the slot. -/
theorem State.writeTask_served {s : State} {p : Port} (h : Ready s p) {ok changing : Bool} (hok : ok = true)
    (hf : changing = false ∨ s.ports.freeze = false) (code : Byte) (args : List Byte) (body : State → TaskEnd) :
    s.writeTask p code args ok changing body =
      ((body (s.taken p)).state.settle p code args (body (s.taken p)).result).respond p [] := by
  have passes : (s.taken p).intake ok changing body = body (s.taken p) :=
    State.intake_passes _ hok (by rwa [(State.taken_port s p).2]) body
  rw [State.writeTask_ready h, ← passes]
  rfl

/-- A completed task: `t` is the state its block left, with the ports as the task found them. -/
theorem State.completed_spec {s t : State} {p : Port} (h : Ready s p) (ht : t.ports = (s.taken p).ports) (code : Byte)
    (args : List Byte) (r : Result) :
    let u := (t.settle p code args (some r)).respond p []
    Answered u p code args r ∧ (∀ q, q ≠ p → u.port q = s.port q) ∧
    (∀ q, tget u.notice.unreadView q = if q = p then true else tget t.notice.unreadView q) ∧
    u.ports.freeze = s.ports.freeze ∧
    u.notice = { t.notice with unreadView := u.notice.unreadView, line := u.notice.line } ∧ NoticeLinesFollow u ∧
    u.lineTable = t.lineTable ∧ u.mix = t.mix ∧ u.cue = t.cue ∧ u.players = t.players ∧ u.meter = t.meter ∧
    u.clock = t.clock ∧ u.free = t.free ∧ u.pending = t.pending := by
  intro u
  have hport : ∀ q, t.port q = (s.taken p).port q := fun q => by simp [State.port, ht]
  obtain ⟨c1, c2, c3, c4⟩ := State.complete_spec t p code args r
  obtain ⟨r1, r2, r3, r4⟩ := State.respond_spec (t.complete p code args r) p []
  have hu : u = (t.complete p code args r).respond p [] := rfl
  rw [hu]
  refine ⟨?_, fun q hq => ?_, fun q => ?_, ?_, ?_, r4, ?_⟩
  · rw [Answered, r1, if_pos rfl, c1, if_pos rfl, hport, (State.taken_port s p).1, if_pos rfl,
      State.statusByte_respond]
    simp [h.1]
  · rw [r1, if_neg hq, c1, if_neg hq, hport, (State.taken_port s p).1, if_neg hq]
  · rw [r3]
    exact c3 q
  · rw [r2, c2, ht, (State.taken_port s p).2]
  · rw [r3, c4]
  · simp

/-- A task that goes on: `t` is the state its block left, with the ports as the task found them. -/
theorem State.goesOn_spec {s t : State} {p : Port} (h : Ready s p) (ht : t.ports = (s.taken p).ports) (code : Byte)
    (args : List Byte) :
    let u := (t.settle p code args none).respond p []
    u.port p = ⟨.working code args, false, false, false, [u.statusByte p]⟩ ∧ (∀ q, q ≠ p → u.port q = s.port q) ∧
    (∀ q, tget u.notice.unreadView q = if q = p then false else tget t.notice.unreadView q) ∧
    u.ports.freeze = s.ports.freeze ∧
    u.notice = { t.notice with unreadView := u.notice.unreadView, line := u.notice.line } ∧ NoticeLinesFollow u ∧
    u.lineTable = t.lineTable ∧ u.mix = t.mix ∧ u.cue = t.cue ∧ u.players = t.players ∧ u.meter = t.meter ∧
    u.clock = t.clock ∧ u.free = t.free ∧ u.pending = t.pending := by
  intro u
  have hport : ∀ q, t.port q = (s.taken p).port q := fun q => by simp [State.port, ht]
  obtain ⟨c1, c2, c3, c4⟩ := State.goWorking_spec t p code args
  obtain ⟨r1, r2, r3, r4⟩ := State.respond_spec (t.goWorking p code args) p []
  have hu : u = (t.goWorking p code args).respond p [] := rfl
  rw [hu]
  refine ⟨?_, fun q hq => ?_, fun q => ?_, ?_, ?_, r4, ?_⟩
  · rw [r1, if_pos rfl, c1, if_pos rfl, hport, (State.taken_port s p).1, if_pos rfl, State.statusByte_respond]
    simp [h.1]
  · rw [r1, if_neg hq, c1, if_neg hq, hport, (State.taken_port s p).1, if_neg hq]
  · rw [r3]
    exact c3 q
  · rw [r2, c2, ht, (State.taken_port s p).2]
  · rw [r3, c4]
  · simp

/-- A refused task: its block left the state as the task found it. -/
theorem State.refused_spec {s : State} {p : Port} (h : Ready s p) (code : Byte) (args : List Byte) (why : Reason)
    (detail : Nat) :
    Refused s (((s.taken p).settle p code args (some (Result.plain .refused why detail))).respond p []) p code args why
      detail := by
  obtain ⟨h1, h2, h3, h4, h5, h6, -⟩ :=
    State.completed_spec (t := s.taken p) h rfl code args (Result.plain .refused why detail)
  refine ⟨⟨⟨h1, h2, by simp [h3], fun q hq => by simp [h3, hq], ⟨h4, by simp, by simp⟩, h6⟩, ?_⟩, ?_⟩
  · simpa using h5
  · exact ⟨by simp, by simp, by simp, by simp, by simp, by simp⟩

/-- A served WRITE-TASK whose block answers a result and leaves the ports as it found them. -/
theorem State.writeTask_completes {s t : State} {p : Port} (h : Ready s p) {ok changing : Bool} (hok : ok = true)
    (hf : changing = false ∨ s.ports.freeze = false) {body : State → TaskEnd} {r : Result}
    (hb : body (s.taken p) = ⟨t, some r⟩) (ht : t.ports = (s.taken p).ports) (code : Byte) (args : List Byte) :
    let u := s.writeTask p code args ok changing body
    Answered u p code args r ∧ (∀ q, q ≠ p → u.port q = s.port q) ∧
    (∀ q, tget u.notice.unreadView q = if q = p then true else tget t.notice.unreadView q) ∧
    u.ports.freeze = s.ports.freeze ∧
    u.notice = { t.notice with unreadView := u.notice.unreadView, line := u.notice.line } ∧ NoticeLinesFollow u ∧
    u.lineTable = t.lineTable ∧ u.mix = t.mix ∧ u.cue = t.cue ∧ u.players = t.players ∧ u.meter = t.meter ∧
    u.clock = t.clock ∧ u.free = t.free ∧ u.pending = t.pending := by
  intro u
  have hu : u = (t.settle p code args (some r)).respond p [] := by
    rw [← (show (body (s.taken p)).state = t from by rw [hb]),
      ← (show (body (s.taken p)).result = some r from by rw [hb])]
    exact State.writeTask_served h hok hf code args body
  rw [hu]
  exact State.completed_spec h ht code args r

/-- A served WRITE-TASK that its block refuses. -/
theorem State.writeTask_refuses {s : State} {p : Port} (h : Ready s p) {ok changing : Bool} (hok : ok = true)
    (hf : changing = false ∨ s.ports.freeze = false) {body : State → TaskEnd} {why : Reason} {detail : Nat}
    (hb : body (s.taken p) = (s.taken p).refuse why detail) (code : Byte) (args : List Byte) :
    Refused s (s.writeTask p code args ok changing body) p code args why detail := by
  rw [State.writeTask_served h hok hf, hb]
  exact State.refused_spec h code args why detail

end Sys2Proof.Machine
end

