-- ==== Sys2Proof/Tests/Slice0.lean ====
section
/-! SUPPORT. The model's own tests: ill-formed commands that WellFormed refuses, link bytes read bit by bit, the manual's worked
cases (each names its section), and for every statement with hypotheses a witness: a concrete state and operands that meet them. -/

namespace Sys2Proof.Tests

open Sys2Proof Sys2Proof.Machine Sys2Proof.Safety

set_option maxRecDepth 16000

/-! ## Small states -/

/-- The state after one command; the state itself where the command gives no next state. -/
def after (c : Instr) (s : State) : State :=
  match exec c s with
  | .next t => t
  | _ => s

/-- The result in the slot of port `p`: status, reason and detail. -/
def resultOf (s : State) (p : Port) : Option (Status × Reason × Nat) :=
  match (s.port p).slot with
  | .done _ _ r => some (r.status, r.reason, r.detail)
  | _ => none

/-- What port `p` reads after it wrote a task. -/
def reads (c : Instr) (p : Port) (s : State) : Option (Status × Reason × Nat) := resultOf (after c s) p

/-- The output in the slot of port `p`. -/
def outputIn (s : State) (p : Port) : List Byte :=
  match (s.port p).slot with
  | .done _ _ r => r.output
  | _ => []

/-- Line 12 of the example of section 3.5 (index 11): HELD under port 1, connected. -/
def line12 : Line := 11

/-- A connected line HELD under a port. -/
def heldBy (p : Port) (l : Line) : State :=
  State.reset.modLine l fun r => { r with connected := true, status := .held, owner := some p }

/-- A line PLACED on a bus under a port. -/
def placedOn (p : Port) (l : Line) (b : Bus) : State :=
  State.reset.modLine l fun r => { r with connected := true, status := .placed, owner := some p, bus := some b }

/-- A port that waits on a line with this remaining time: its CLAIM is WORKING. -/
def waiting (s : State) (p : Port) (l : Line) (t : TimeLeft) : State :=
  (s.modLine l fun r => { r with waiters := tset r.waiters p (some t) }).modPort p fun x =>
    { x with slot := .working 0x30 [num l, 1, 0] }

/-- A talk slot on a line. -/
def talking (s : State) (p : Port) (l : Line) : State :=
  s.modLine l fun r => { r with talk := some ⟨p, 5, 32768, 8192⟩ }

/-- The player of port `p` STEPPING at address `a` of its region, where these records stand from `a` on; the region is valid where
there is a record, and invalid where there is none. -/
def standing (p : Port) (a : Nat) (records : List (List Byte)) (s : State) : State :=
  (s.withCue { s.cue with
    mem := s.cue.mem.writeBytes (recordByte p a 0) records.flatten
    valid := tset s.cue.valid p (tall !records.isEmpty) }).setPlayer p { s.player p with state := .stepping, addr := a }

/-- FREEZE asserted. -/
def frozen (s : State) : State := s.setFreeze true

/-- The generator running on INT, LOCKED and selected. -/
def running : State :=
  (State.reset.setRef 0 ⟨.locked, 0, true, false, 1000000000⟩).withClock
    { (State.reset.setRef 0 ⟨.locked, 0, true, false, 1000000000⟩).clock with
      generator := .following, rate := some 1000000000, running := true }

/-! ## WellFormed refuses what cannot reach the part -/

theorem test_argument_lengths_fit_one_byte :
    Instr.wellFormed (.setCell 0 (List.replicate 256 0)) = false ∧ Instr.wellFormed (.setCell 0 (List.replicate 255 0)) = true ∧
    Instr.wellFormed (.clockStatus 3 (List.replicate 256 0)) = false ∧
    Instr.wellFormed (.unknownTask 1 0x00 (List.replicate 256 0)) = false := by decide

theorem test_unknown_task_codes :
    Instr.wellFormed (.unknownTask 0 0x10 []) = false ∧ Instr.wellFormed (.unknownTask 0 0x72 []) = false ∧
    Instr.wellFormed (.unknownTask 0 0x12 []) = true := by decide

theorem test_read_status_command_bytes :
    Instr.wellFormed (.readStatus 0 0x01) = false ∧ Instr.wellFormed (.readStatus 0 0x02) = false ∧
    Instr.wellFormed (.readStatus 0 0x04) = false ∧ Instr.wellFormed (.readStatus 0 0x03) = true ∧
    Instr.wellFormed (.readStatus 0 0xFF) = true := by decide

theorem test_reference_period_lengths :
    Instr.wellFormed (.referencePeriod 1 2000000001) = false ∧
    Instr.wellFormed (.referencePeriod 1 2000000000) = true := by decide

/-! ## Link bytes (R176, R186) -/

/-- CLAIM line 7, wait 500, of the example of section 11.2: 0x01, task code 0x30, 3 argument bytes, 0x07, 0x01F4. -/
theorem test_link_claim : decodeLink 1 [0x01, 0x30, 0x03, 0x07, 0x01, 0xF4] = some (.claim 1 [0x07, 0x01, 0xF4]) := by decide

/-- SET-CELL contributor 7, bus 5, coefficient 24,576 (section 2.5); bytes after the last argument are not read. -/
theorem test_link_set_cell :
    decodeLink 2 [0x01, 0x10, 0x04, 0x07, 0x05, 0x60, 0x00, 0xAA] = some (.setCell 2 [0x07, 0x05, 0x60, 0x00]) ∧
    decodeLink 2 [0x01, 0x10, 0x04, 0x07, 0x05, 0x60] = none := by decide

theorem test_link_reads :
    decodeLink 0 [0x02] = some (.readResult 0) ∧ decodeLink 0 [0x03] = some (.readStatus 0 0x03) ∧
    decodeLink 0 [0x04] = some (.abort 0) ∧ decodeLink 0 [0x01, 0x13, 0x00] = some (.unknownTask 0 0x13 []) := by decide

/-- No row of the table has bits: a word spells no command, and puts none in front of the queue. -/
theorem test_no_word_spells_a_command :
    decodeTableWord 0 0 = none ∧ (State.reset.withFetchWord 8 0x10).pending = [] := by decide

/-! ## Worked cases of the manual -/

/-- The frame of the worked case of a three-contributor bus (chapter 1), with the samples of sources 1 and 2 and lines 3 and 5. -/
def workedFrame : InputFrame :=
  let rx : InputFrame := tall 0
  let rx := tset rx 3 (frameOf fun n =>
    if n = 0 then BitVec.ofInt 24 1000000 else if n = 1 then BitVec.ofInt 24 (-123457) else 0)
  tset rx 0 (frameOf fun n => if n = 2 then BitVec.ofInt 24 (-400000) else if n = 4 then BitVec.ofInt 24 200000 else 0)

/-- The bank and the line records of that worked case, at rest. -/
def workedState : State :=
  let s := running.modLine 2 fun r => { r with connected := true, status := .placed, owner := some 0, bus := some 0 }
  let s := s.modLine 4 fun r =>
    { r with connected := true, status := .placed, owner := some 0, bus := some 0, talk := some ⟨0, 1, 32768, 32768⟩ }
  let cell (c : Contributor) (v : Nat) (m : MixEngine) : MixEngine :=
    { m with cells := tmod m.cells c fun row => tset row 0 ⟨v, v⟩ }
  let m := cell 24 32768 (cell 2 32768 (cell 4 16384 s.mix))
  s.withMix { m with
    storedTrim := tset m.storedTrim 4 16384, trim := tset m.trim 4 ⟨16384, 16384⟩
    talkLevel := tset m.talkLevel 4 ⟨32768, 32768⟩, lastTalk := tset m.lastTalk 4 1 }

/-- Worked case, a three-contributor bus: bus 1 gives 700,000, line 3 hears 1,100,000, line 5 hears 176,543; no output clips. -/
theorem test_three_contributor_bus :
    let o := workedState.outputs workedFrame
    tget o 24 = (700000, false) ∧ tget o 2 = (1100000, false) ∧ tget o 4 = (176543, false) := by decide

/-- The first and the last bit period of a channel, and the signalling word's (R190): channel 1 starts the frame, channel 8 ends at
bit period 192, the word at 216, and what follows is not read. An output frame carries no word. -/
theorem test_link_frame_layout :
    channelOf (BitVec.twoPow 256 255) 0 = 0x800000 ∧ channelOf (BitVec.twoPow 256 232) 0 = 1 ∧
    channelOf (BitVec.twoPow 256 231) 1 = 0x800000 ∧ channelOf (BitVec.twoPow 256 64) 7 = 1 ∧
    signallingOf (BitVec.twoPow 256 63) = 0x800000 ∧ signallingOf (BitVec.twoPow 256 40) = 1 ∧
    signallingOf (BitVec.twoPow 256 39) = 0 ∧ signallingOf (frameOf fun _ => 0xFFFFFF) = 0 := by decide

/-- Line 10 (link A1, channel 2) shows connected in bit 1 and attention in bit 9 of its link's word; a marker at offset 255 (R190). -/
theorem test_signalling_word_bits :
    let rx : LineFrame := tset (tall 0) 1 (BitVec.ofNat 256 (0x000202 * 2 ^ 40))
    rawConnected rx 9 = true ∧ rawAttention rx 9 = true ∧ rawConnected rx 8 = false ∧ rawAttention rx 1 = false ∧
    frameMarker rx = none ∧ frameMarker (tset rx 0 (BitVec.ofNat 256 (0xFF0000 * 2 ^ 40))) = some 255 := by decide

/-- R176: 0x00 while the two bytes of no command but ABORT's one are sent, then the status byte, the response byte, then 0x00. -/
theorem test_sent_bytes :
    let t := after (.abort 1) State.reset
    (List.range 4).map (t.sends (.abort 1)) = [some 0, some (t.statusByte 1), some 0, some 0] ∧
    ((after (.clockStatus 1 []) State.reset).sends (.clockStatus 1 []) 2) = some 0 ∧
    ((State.reset.modPort 1 fun x => { x with held := true }).sends (.abort 1) 0) = none := by decide

/-- Worked cases, rounding at half values and a bus at its limit: 1.5 goes to 2 and -1.5 to -1; a bus at its limit saturates with a clip mark. -/
theorem test_rounding_and_limit :
    rescale 49152 = 2 ∧ rescale (-49152) = -1 ∧ satClip (rescale 524288000000) = (8388607, true) ∧
    satClip (-8388609) = (-8388608, true) ∧ satClip (-8388608) = (-8388608, false) := by decide

/-- The table of R30. -/
theorem test_trim_targets :
    trimTarget 32768 32768 = 32768 ∧ trimTarget 32768 8192 = 8192 ∧ trimTarget 40000 16384 = 20000 ∧
    trimTarget 16384 32768 = 16384 ∧ trimTarget 65535 16384 = 32767 ∧ trimTarget 12345 0 = 0 := by decide

/-- R32, with the last steps of the example of section 2.5. -/
theorem test_ramp_steps :
    Ramp.step ⟨24576, 0⟩ = ⟨24576, 128⟩ ∧ Ramp.step ⟨6000, 12800⟩ = ⟨6000, 12672⟩ ∧ Ramp.step ⟨6000, 6016⟩ = ⟨6000, 6000⟩ ∧
    Ramp.step ⟨100, 100⟩ = ⟨100, 100⟩ := by decide

/-- Section 2.5: port 2 on line 7 and bus 5; the detail is the current value. -/
theorem test_set_cell :
    let s := heldBy 2 6
    reads (.setCell 2 [7, 5, 0x60, 0]) 2 s = some (.done, .none, 0) ∧
    tget (tget (after (.setCell 2 [7, 5, 0x60, 0]) s).mix.cells 6) 4 = ⟨24576, 0⟩ ∧
    reads (.setCell 1 [7, 5, 0x80, 0]) 1 s = some (.refused, .notOwner, 2) ∧
    reads (.setCell 1 [7, 3, 0x80, 0]) 1 s = some (.refused, .notOwner, 2) ∧
    reads (.setCell 1 [41, 3, 0, 0]) 1 s = some (.refused, .badArg, 0) := by decide

/-- Section 2.6: PARK source 12, gain 8,192, and the first frame's gain. -/
theorem test_park :
    let t := after (.park 0 [12, 0x20, 0]) State.reset
    reads (.park 0 [12, 0x20, 0]) 0 State.reset = some (.done, .none, 0) ∧ t.mix.parkSource = 11 ∧
    t.mix.parkGain = ⟨8192, 0⟩ ∧ t.mix.parkGain.step = ⟨8192, 128⟩ ∧ rescale (400000 * 128) = 1563 ∧
    reads (.park 3 [12, 0x40, 0]) 3 State.reset = some (.refused, .notSenior, 255) ∧
    reads (.park 0 [17, 0x40, 0]) 0 State.reset = some (.refused, .badArg, 0) := by decide

/-- Section 3.5: a line placed on bus 3, refused on bus 1, put on hold with source 7. -/
theorem test_place :
    let s := heldBy 1 line12
    let t := after (.place 1 [12, 3, 0]) s
    reads (.place 1 [12, 3, 0]) 1 s = some (.done, .none, 0) ∧ (t.line line12).status = .placed ∧
    (t.line line12).bus = some 2 ∧
    reads (.place 1 [12, 1, 0]) 1 t = some (.refused, .notOwner, 0) ∧
    reads (.place 1 [12, 0, 7]) 1 t = some (.done, .none, 3) ∧
    ((after (.place 1 [12, 0, 7]) t).line line12).hold = some 6 ∧
    reads (.place 2 [12, 5, 0]) 2 t = some (.refused, .notOwner, 1) := by decide

/-- Section 3.6: TRIM with a talk slot's duck of 8,192. -/
theorem test_trim :
    let s := (heldBy 0 4).withMix { State.reset.mix with
      storedTrim := tset State.reset.mix.storedTrim 4 16384, trimDuck := tset State.reset.mix.trimDuck 4 8192
      trim := tset State.reset.mix.trim 4 ⟨4096, 4096⟩ }
    reads (.trim 0 [5, 0x60, 0]) 0 s = some (.done, .none, 16384) ∧
    tget (after (.trim 0 [5, 0x60, 0]) s).mix.trim 4 = ⟨6144, 4096⟩ := by decide

/-- Section 3.7: TONE on and a bad setting; the tone sample of R25. -/
theorem test_tone :
    let s := heldBy 3 19
    reads (.tone 3 [20, 1]) 3 s = some (.done, .none, 0) ∧ ((after (.tone 3 [20, 1]) s).line 19).tone = true ∧
    reads (.tone 3 [20, 2]) 3 s = some (.refused, .badArg, 0) ∧ toneSample 30 = -1056000 ∧ toneSample 23 = 1056000 := by decide

/-- Section 3.8: a FREE line's latch acknowledged by any port; another port's line refused. -/
theorem test_ack_attn :
    let s := State.reset.setAttention 13 true
    reads (.ackAttn 3 [14]) 3 s = some (.done, .none, 1) ∧ ((after (.ackAttn 3 [14]) s).line 13).attention = false ∧
    reads (.ackAttn 1 [14]) 1 State.reset = some (.done, .none, 0) ∧
    reads (.ackAttn 1 [14]) 1 (heldBy 2 13) = some (.refused, .notOwner, 2) := by decide

/-- Section 3.9: LINE-STATUS of line 12 with two waiters. -/
theorem test_line_status :
    let s := ((waiting (waiting (heldBy 1 line12) 2 line12 (.frames 95520)) 3 line12 (.frames 23520)).modLine line12
      fun r => { r with status := .placed, bus := some 3, hold := some 6 })
    reads (.lineStatus 0 [12]) 0 s = some (.done, .none, 1) ∧
    outputIn (after (.lineStatus 0 [12]) s) 0 = [12, 1, 0, 2, 1, 4, 7, 0, 0x80, 0, 255, 0, 0, 0, 0, 0, 2,
      2, 0x01, 0x75, 0x20, 3, 0x00, 0x5B, 0xE0] := by decide

/-- Section 4.4: CLAIM of port 3's line: Busy, and a wait of 45,000 ms taken as 30,000; a FREE line granted (R85). -/
theorem test_claim :
    let s := placedOn 3 17 6
    reads (.claim 2 [18, 0, 0]) 2 s = some (.refused, .busy, 3) ∧
    tget ((after (.claim 2 [18, 0xAF, 0xC8]) s).line 17).waiters 2 = some (.frames 1440000) ∧
    ((after (.claim 2 [18, 0xAF, 0xC8]) s).port 2).slot = .working 0x30 [18, 0xAF, 0xC8] ∧
    reads (.claim 2 [19, 0, 0]) 2 s = some (.done, .none, 255) ∧
    ((after (.claim 2 [19, 0, 0]) s).line 18).owner = some 2 := by decide

/-- Section 4.4: 12,000 frames later port 1's CLAIM ends Timeout with the owner in the detail. -/
theorem test_claim_wait_expiry :
    let s := waiting (placedOn 3 17 6) 1 17 (.frames 0)
    resultOf (after (.claimWaitExpiry 17 1) s) 1 = some (.ended, .timeout, 3) ∧
    tget ((after (.claimWaitExpiry 17 1) s).line 17).waiters 1 = none := by decide

/-- Section 4.5: RELEASE of line 3 to port 1, the lower-numbered of two waiters. -/
theorem test_release :
    let s := (waiting (waiting (placedOn 0 2 0) 1 2 (.frames 1000)) 2 2 .unlimited).setAttention 2 true
    let s := s.withMix (s.mix.writeCells (fun c b => c == 2 && b == 0) 32768)
    let t := after (.release 0 [3]) s
    resultOf t 0 = some (.done, .none, 1) ∧ resultOf t 1 = some (.done, .none, 0) ∧ (t.line 2).owner = some 1 ∧
    (t.line 2).status = .held ∧ (t.line 2).attention = false ∧ tget (t.line 2).waiters 2 = some .unlimited ∧
    (tget (tget t.mix.cells 2) 0).target = 0 := by decide

/-- Section 4.6: HAND of line 14 to port 2, past the waiting port 1, with the latch as it stood. -/
theorem test_hand :
    let s := ((waiting (heldBy 3 13) 1 13 (.frames 3000)).setAttention 13 true).modLine 13 fun r => { r with hold := some 8 }
    let t := after (.hand 3 [14, 2]) s
    resultOf t 3 = some (.done, .none, 0) ∧ (t.line 13).owner = some 2 ∧ (t.line 13).hold = none ∧
    (t.line 13).attention = true ∧ tget (t.line 13).waiters 1 = some (.frames 3000) ∧
    (tget (tget t.notice.events 2) 13).handed = true ∧
    reads (.hand 2 [14, 2]) 2 t = some (.refused, .badArg, 0) ∧
    resultOf (after (.hand 2 [14, 1]) t) 1 = some (.done, .none, 2) := by decide

/-- Section 4.7, R91: SEIZE raises TAKEN for the previous owner and TALK-ENDED for the talk-slot holder. -/
theorem test_seize :
    let t := after (.seize 0 [14]) (talking (heldBy 3 13) 3 13)
    resultOf t 0 = some (.done, .none, 3) ∧ (t.line 13).owner = some 0 ∧ (t.line 13).talk = none ∧
    (tget (tget t.notice.events 3) 13).taken = true ∧ (tget (tget t.notice.events 3) 13).talkEnded = true ∧
    reads (.seize 1 [14]) 1 State.reset = some (.refused, .notSenior, 255) := by decide

/-- Section 4.8: ASSIGN bus 3 to port 0 takes lines 10 off it and closes their cells; the source's cell stays. -/
theorem test_assign :
    let s := placedOn 1 9 2
    let s := s.withMix (s.mix.writeCells (fun c b => (c == 9 || c == 26) && b == 2) 32768)
    let t := after (.assign 0 [3, 0]) s
    resultOf t 0 = some (.done, .none, 1) ∧ t.busOwner 2 = 0 ∧ (t.line 9).status = .held ∧ (t.line 9).owner = some 1 ∧
    (tget (tget t.mix.cells 9) 2).target = 0 ∧ (tget (tget t.mix.cells 26) 2).target = 32768 := by decide

/-- Section 4.9: CLEAR-MATRIX frees the lines, ends the waiting CLAIM Cleared and leaves a FREE line's latch. -/
theorem test_clear_matrix :
    let s := (waiting (placedOn 2 6 4) 1 6 .unlimited).setAttention 13 true
    let s := s.withMix { s.mix with parkGain := ⟨8192, 8192⟩ }
    let t := after (.clearMatrix 0 []) s
    resultOf t 0 = some (.done, .none, 1) ∧ resultOf t 1 = some (.ended, .cleared, 255) ∧ (t.line 6).status = .free ∧
    (t.line 13).attention = true ∧ (tget (tget t.notice.events 2) 6).taken = true ∧ t.mix.parkGain = ⟨0, 8192⟩ := by decide

/-- Section 5.2: port 0 displaces port 1's talk slot, its duck of 40,000 taken as 32,768; port 1 is then refused Busy. -/
theorem test_talk :
    let s := talking (heldBy 1 line12) 1 line12
    let t := after (.talk 0 [12, 2, 0x40, 0, 0x9C, 0x40]) s
    resultOf t 0 = some (.done, .none, 1) ∧ (t.line line12).talk = some ⟨0, 1, 16384, 32768⟩ ∧
    (tget t.mix.talkLevel line12).target = 16384 ∧ tget t.mix.trimDuck line12 = 32768 ∧
    (tget (tget t.notice.events 1) line12).talkEnded = true ∧
    reads (.talk 1 [12, 6, 0x80, 0, 0x20, 0]) 1 t = some (.refused, .busy, 0) := by decide

/-- Section 5.3: UNTALK by the holder reports the level it fades from. -/
theorem test_untalk :
    let s := talking (heldBy 1 line12) 0 line12
    let s := s.withMix { s.mix with talkLevel := tset s.mix.talkLevel line12 ⟨16384, 16384⟩ }
    reads (.untalk 1 [12]) 1 s = some (.refused, .notHolder, 0) ∧ reads (.untalk 0 [12]) 0 s = some (.done, .none, 16384) ∧
    tget (after (.untalk 0 [12]) s).mix.talkLevel line12 = ⟨0, 16384⟩ ∧
    reads (.untalk 0 [12]) 0 (heldBy 1 line12) = some (.refused, .notHolder, 255) := by decide

/-- Section 6.4: a range past the region refused; a timeout of 30 ms taken as 100, of 60,000 as 10,000. -/
theorem test_load_begin :
    reads (.loadBegin 2 [250, 0, 7, 1, 0xF4]) 2 State.reset = some (.refused, .badArg, 0) ∧
    reads (.loadBegin 2 [250, 0, 6, 0, 30]) 2 State.reset = some (.done, .none, 100) ∧
    (let t := after (.loadBegin 2 [250, 0, 6, 0, 30]) State.reset
     t.loader 2 = ⟨true, 250, 6, 0, 4800, some 4800, .none⟩ ∧
     (after (.loadBegin 2 [0, 1, 0, 0xEA, 0x60]) t).loader 2 = ⟨true, 0, 256, 0, 480000, some 480000, .abandoned⟩) := by decide

/-- R123, R124: a chunk of one record; a chunk past the declared count refused Overrun with the received count. -/
theorem test_load_chunk :
    let s := after (.loadBegin 1 [4, 0, 1, 0, 100]) State.reset
    let t := after (.loadChunk 1 [10, 1, 2, 3, 4, 5, 6, 0]) s
    resultOf t 1 = some (.done, .none, 1) ∧ t.record 1 4 = [10, 1, 2, 3, 4, 5, 6, 0] ∧ t.recordValid 1 4 = false ∧
    reads (.loadChunk 1 [10, 1, 2, 3, 4, 5, 6, 0]) 1 t = some (.refused, .overrun, 1) ∧
    reads (.loadChunk 1 [10, 1, 2, 3, 4, 5, 6]) 1 s = some (.refused, .badArg, 0) ∧
    (after (.loadEnd 1 []) t).recordValid 1 4 = true ∧
    reads (.loadEnd 1 []) 1 s = some (.ended, .short, 0) := by decide

/-- Section 7.8: RUN outside the region, and of a player whose loader is LOADING. -/
theorem test_run :
    let s := State.reset.setLoader 3 ⟨true, 0, 6, 5, 4800, some 4800, .none⟩
    reads (.run 3 [1, 0x2C]) 3 s = some (.refused, .badArg, 0) ∧ reads (.run 3 [0, 0]) 3 s = some (.refused, .busy, 5) ∧
    reads (.run 3 [0, 255]) 3 State.reset = some (.done, .none, 255) ∧
    ((after (.run 3 [0, 255]) State.reset).player 3).state = .stepping := by decide

/-- Section 7.9, R143: HALT of a running player and of an IDLE one. -/
theorem test_halt :
    let s := standing 1 40 [[0x0A, 0, 0, 0, 0, 0, 0, 0]] State.reset
    reads (.halt 1 []) 1 s = some (.done, .none, 40) ∧ (after (.halt 1 []) s).player 1 = ⟨.idle, 40, .halted, 40⟩ ∧
    reads (.halt 1 []) 1 State.reset = some (.done, .none, 256) := by decide

/-- Section 7.10: SEQ-STATUS of a PAUSED player at 43 with end record End at 27, in the 18 bytes of R188. -/
theorem test_seq_status :
    let s := (State.reset.setPlayer 1 ⟨.paused, 43, .ended, 27⟩).setLoader 1 ⟨false, 40, 9, 9, 4800, none, .done⟩
    reads (.seqStatus 1 []) 1 s = some (.done, .none, 43) ∧
    outputIn (after (.seqStatus 1 []) s) 1 = [0, 40, 0, 9, 0, 9, 0, 0, 0, 1, 5, 43, 0, 0, 0, 1, 0, 27] := by decide

/-- The steps of the worked sequence, a caller put on air: TALK-ON, WAIT 2,000 ms and TALK-OFF of port 1 on line 10. -/
theorem test_talk_and_wait_steps :
    let s := heldBy 1 9
    let on := after (.stepTalkOn 1) (standing 1 40 [[4, 10, 6, 0x80, 0, 0x20, 0, 0]] s)
    (on.line 9).talk = some ⟨1, 5, 32768, 8192⟩ ∧ (on.player 1).addr = 41 ∧
    (let w := after (.stepWait 1) (standing 1 41 [[7, 0x07, 0xD0, 0, 0, 0, 0, 0]] s)
     (w.player 1).state = .waiting 96000) ∧
    (let off := after (.stepTalkOff 1) (standing 1 42 [[5, 10, 0, 0, 0, 0, 0, 0]] (talking s 1 9))
     (off.line 9).talk = none ∧ (off.player 1).addr = 43) := by decide

/-- The group of that sequence: staged at 43, PENDING there, and applied by a frame event, the player then at 47. -/
theorem test_group_is_staged_and_applied :
    let s := standing 1 43 [[9, 3, 0, 0, 0, 0, 0, 0], [3, 10, 3, 0, 0, 0, 0, 0], [1, 10, 3, 0x80, 0, 0, 0, 0],
      [2, 10, 0x60, 0, 0, 0, 0, 0]] (running.modLine 9 fun r => { r with status := .held, owner := some 1 })
    let t := after (.stepGroup 1) s
    (t.player 1).state = .pending ∧ (t.player 1).addr = 43 ∧ (t.line 9).status = .held ∧
    (let u := t.applyGroups
     (u.player 1).state = .stepping ∧ (u.player 1).addr = 47 ∧ (u.line 9).bus = some 2 ∧
     (tget (tget u.mix.cells 9) 2).target = 32768 ∧ tget u.mix.storedTrim 9 = 24576) := by decide

/-- A changing step: made by the owner, NotOwner without ownership, PAUSED under FREEZE, RanOff at 255 (R131, R132, R139). -/
theorem test_changing_steps :
    let cell : List Byte := [1, 25, 3, 0x80, 0, 0, 0, 0]
    let s := standing 1 7 [cell] State.reset
    ((after (.stepSetCell 1) s).player 1).addr = 8 ∧ (tget (tget (after (.stepSetCell 1) s).mix.cells 24) 2).target = 32768 ∧
    (after (.stepSetCell 2) (standing 2 7 [cell] State.reset)).player 2 = ⟨.idle, 7, .fault .notOwner, 7⟩ ∧
    ((after (.stepSetCell 1) (frozen s)).player 1).state = .paused ∧
    (after (.stepSetCell 1) (standing 1 255 [cell] State.reset)).player 1 = ⟨.idle, 255, .fault .ranOff, 255⟩ := by decide

/-- SET-TRIM, PLACE and TONE steps of the owner (R132). -/
theorem test_line_steps :
    let s := heldBy 0 4
    tget (after (.stepSetTrim 0) (standing 0 0 [[2, 5, 0x40, 0, 0, 0, 0, 0]] s)).mix.storedTrim 4 = 16384 ∧
    ((after (.stepPlace 0) (standing 0 0 [[3, 5, 1, 0, 0, 0, 0, 0]] s)).line 4).bus = some 0 ∧
    ((after (.stepTone 0) (standing 0 0 [[6, 5, 1, 0, 0, 0, 0, 0]] s)).line 4).tone = true := by decide

/-- AWAIT holds until its condition (R135), END and bad records end the player (R131, R132), and a timeout ends or goes on (R136). -/
theorem test_await_end_and_bad_steps :
    let s := heldBy 1 9
    ((after (.stepAwait 1) (standing 1 47 [[8, 10, 2, 0, 0, 1, 0, 0]] s)).player 1).state
      = .awaiting .unlimited 9 .disconnected .goOn ∧
    ((after (.stepAwait 1) (standing 1 47 [[8, 10, 1, 0, 0, 1, 0, 0]] s)).player 1).addr = 48 ∧
    (after (.stepEnd 1) (standing 1 255 [[10, 0, 0, 0, 0, 0, 0, 0]] s)).player 1 = ⟨.idle, 255, .ended, 255⟩ ∧
    (after (.examineInvalidStep 1) (standing 1 3 [] s)).player 1 = ⟨.idle, 3, .fault .invalid, 3⟩ ∧
    (after (.examineMalformedStep 1) (standing 1 3 [[11, 0, 0, 0, 0, 0, 0, 0]] s)).player 1 = ⟨.idle, 3, .fault .badStep, 3⟩ ∧
    (after (.awaitTimeout 1) (s.setPlayer 1 ⟨.awaiting (.frames 0) 9 .connected .stop, 9, .none, 0⟩)).player 1
      = ⟨.idle, 9, .timeout, 9⟩ ∧
    (after (.waitTimerExpiry 1) (s.setPlayer 1 ⟨.waiting 0, 255, .none, 0⟩)).player 1 = ⟨.idle, 255, .ended, 255⟩ := by decide

/-- Section 8.5: WATCH of lines 3, 14 and 20, two of them latched, and the notice line it leaves asserted. -/
theorem test_watch :
    let s := (State.reset.setAttention 13 true).setAttention 19 true
    let t := after (.watch 2 [0x04, 0x20, 0x08]) s
    resultOf t 2 = some (.done, .none, 2) ∧ tget (after (.readResult 2) t).notice.line 2 = true ∧
    reads (.watch 2 [0x04, 0, 0]) 2 t = some (.done, .none, 0) := by decide

/-- Worked sequence, one port's notices, step 5: READ-NOTICES with two event entries (DROPPED on 10, HANDED on 14) and lines 14 and 18 latched. -/
theorem test_read_notices :
    let s := ((State.reset.setAttention 13 true).setAttention 17 true).raise 1 13 .handed
    let s := after (.watch 1 [0, 0x22, 0x02]) (s.raise 1 9 .dropped)
    let t := after (.readNotices 1 []) s
    resultOf t 1 = some (.done, .none, 2) ∧ outputIn t 1 = [2, 2, 0, 10, 4, 14, 1, 14, 18] ∧ t.eventsPending 1 = false := by
  decide

/-- Worked sequence, two studios ask for levels: two waiting SNAPs; port 1, the lower-numbered, gets the buffer, and port 2's ends Locked. -/
theorem test_snap_and_capture :
    let s := after (.snap 1 []) (after (.snap 2 []) State.reset)
    let s := s.withMeter { s.meter with live := tset (tset s.meter.live 5 ⟨8388607, 37⟩) 25 ⟨8388607, 37⟩ }
    let t := s.capture
    (s.port 2).slot = .working 0x68 [] ∧ resultOf t 1 = some (.done, .none, 2) ∧ resultOf t 2 = some (.ended, .locked, 1) ∧
    t.meter.buffer.map (fun b => (b.holder, b.timer)) = some (1, 48000) ∧ tget t.meter.live 25 = ⟨0, 0⟩ ∧
    reads (.snap 2 []) 2 t = some (.refused, .locked, 1) := by decide

/-- The same sequence: READ-SNAP of entries 24 and 25, and the expiry of the buffer (R158). -/
theorem test_read_snap :
    let s := State.reset.withMeter { State.reset.meter with
      buffer := some ⟨tset (tset (tall ⟨0, 0⟩) 24 ⟨700000, 0⟩) 25 ⟨8388607, 37⟩, 1, 0⟩ }
    let t := after (.readSnap 1 [24, 2, 1]) s
    resultOf t 1 = some (.done, .none, 2) ∧
    outputIn t 1 = [25, 0x0A, 0xAE, 0x60, 0, 0, 26, 0x7F, 0xFF, 0xFF, 0, 37] ∧ t.meter.buffer = none ∧
    reads (.readSnap 2 [0, 32, 0]) 2 t = some (.refused, .noData, 255) ∧
    (after .snapshotExpiry s).meter.buffer = none := by decide

/-- Section 10.5, example: REF-SELECT and REF-ENABLE refused and served, CLOCK-STATUS read. -/
theorem test_reference_tasks :
    let s := (running.setRef 2 ⟨.acquiring, 1200, true, false, 1000000000⟩).setRef 1 ⟨.locked, 0, true, false, 1000000000⟩
    let s := s.withClock { s.clock with selected := 1 }
    reads (.refSelect 2 [2]) 2 s = some (.refused, .notSenior, 255) ∧
    reads (.refSelect 0 [2]) 0 s = some (.refused, .noLock, 1) ∧
    reads (.refEnable 0 [1, 0]) 0 s = some (.refused, .busy, 1) ∧
    reads (.refSelect 0 [0]) 0 s = some (.done, .none, 1) ∧ reads (.refEnable 0 [3, 1]) 0 s = some (.done, .none, 0) ∧
    outputIn (after (.clockStatus 3 []) s) 3 = [2, 2, 1, 0, 0, 0, 0, 0, 0x04, 0xB0, 0, 0, 1, 0, 1] := by decide

/-- Section 10.2: INT's 256th sound period leaves its lock due, and the lock starts the generator without a flag (R169). -/
theorem test_int_locks :
    let s := State.reset.setRef 0 ⟨.acquiring, 255, true, false, 1000000000⟩
    let t := after (.referencePeriod 0 1000000000) s
    let u := after (.referenceLock 0) t
    t.clock.running = false ∧ u.clock.running = true ∧ u.clock.generator = .following ∧ (u.ref 0).state = .locked ∧
    u.notice.refChange = false := by decide

/-- Worked sequence, riding through a word clock's loss: the eighth missing period of the selected reference leaves its loss due; the loss is HOLDOVER with the flag. -/
theorem test_selected_reference_is_lost :
    let s := running.setRef 1 ⟨.locked, 7, false, false, 1000000000⟩
    let s := s.withClock { s.clock with selected := 1 }
    let u := after (.referenceLoss 1) (after (.missingPeriod 1) s)
    (u.ref 1).state = .acquiring ∧ u.clock.generator = .holdover ∧ u.clock.rate = some 1000000000 ∧
    u.notice.refChange = true := by decide

/-- Worked sequence, a ring, a glitch and a call: the 384th frame of raw attention on line 14, whose word is link A1's, latches it. -/
theorem test_debounce :
    let s := running.modLine 13 fun r => { r with attnCount := 383 }
    let t := after (.signallingWord (tset (tall 0) 1 (BitVec.ofNat 256 (0x002000 * 2 ^ 40)))) s
    let u := after (.attentionRaised 13) t
    (t.line 13).attnCount = 384 ∧ (t.line 13).attention = false ∧ (u.line 13).attention = true ∧
    tget u.notice.latchView 13 = true ∧
    ((after (.attentionDropped 13) (u.modLine 13 fun r => { r with attnCount := 384 })).line 13).attention = true := by decide

/-- R55, R56: a due Connect, and a due Disconnect of an owned line with DROPPED to its owner. -/
theorem test_connect_and_disconnect :
    ((after (.connect 4) (State.reset.modLine 4 fun r => { r with connCount := 384 })).line 4).connected = true ∧
    (let t := after (.disconnect 4) ((heldBy 3 4).modLine 4 fun r => { r with connCount := 384 })
     (t.line 4).connected = false ∧ (tget (tget t.notice.events 3) 4).dropped = true) := by decide

/-- Section 11.2, example: a CLAIM in progress, a LINE-STATUS that is lost, an ABORT that ends the claim, and a second one. -/
theorem test_abort :
    let s := after (.claim 1 [7, 1, 0xF4]) (heldBy 2 6)
    let t := after (.lineStatus 1 [7]) s
    let u := after (.abort 1) t
    (t.port 1).response = [0x45] ∧ resultOf u 1 = some (.ended, .aborted, 2) ∧ (u.port 1).response = [0xC5, 1] ∧
    (after (.readResult 1) u).port 1
      = ⟨.done 0x30 [7, 1, 0xF4] ⟨.ended, .aborted, 2, []⟩, false, true, false, [0x85, 2, 0x30, 3, 15, 0, 2, 0]⟩ ∧
    ((after (.abort 1) u).port 1).response = [0xC5, 0] := by decide

/-- R179: an unknown code is answered REFUSED UnknownTask, under FREEZE too; FREEZE is bit 1 of the status byte (R187). R139: a player
PAUSED at its step is STEPPING at the same address after a release, and carries the step out. -/
theorem test_unknown_task_and_freeze :
    reads (.unknownTask 0 0x12 [1]) 0 (after .freezeAsserted State.reset) = some (.refused, .unknownTask, 0) ∧
    reads (.setCell 0 [25, 1, 0, 0]) 0 (after .freezeAsserted State.reset) = some (.refused, .frozen, 0) ∧
    (after (.readStatus 0 0x03) (after .freezeAsserted State.reset)).port 0 = ⟨.empty, false, false, false, [0x03]⟩ ∧
    (let s := after (.stepSetCell 1) (frozen (standing 1 7 [[1, 25, 3, 0x80, 0, 0, 0, 0]] State.reset))
     let told := after .freezeReleased s
     let done := after (.stepSetCell 1) told
     (after (.stepSetCell 1) s).player 1 = ⟨.paused, 7, .none, 0⟩ ∧ told.player 1 = ⟨.stepping, 7, .none, 0⟩ ∧
     ((after (.stepSetCell 1) (after .freezeAsserted told)).player 1).state = .paused ∧
     done.player 1 = ⟨.stepping, 8, .none, 0⟩ ∧ (tget (tget done.mix.cells 24) 2).target = 32768) := by decide

/-- R183: a release and an assertion that follow each other before a player is told leave it PAUSED. -/
theorem test_release_and_assertion :
    let s := frozen (State.reset.setPlayer 2 ⟨.paused, 5, .none, 0⟩)
    ((after .freezeReleased (s.withPending [.freezeAsserted])).player 2).state = .paused ∧
    ((after .freezeReleased (s.withPending [.halt 2 []])).player 2).state = .stepping := by decide

/-- R184: a port reset empties the slot, takes the port out of a waiter set and leaves its lines; a held port takes no task. -/
theorem test_port_reset :
    let t := after (.portReset 1) (waiting (heldBy 2 6) 1 6 .unlimited)
    (t.port 1).slot = .empty ∧ tget (t.line 6).waiters 1 = none ∧ reads (.lineStatus 1 [7]) 1 t = none ∧
    reads (.lineStatus 1 [7]) 1 (after (.portResetRelease 1) t) = some (.done, .none, 2) := by decide

/-- R185: power-on reset puts the blocks back to their power-on values. -/
theorem test_power_on_reset :
    let t := after .powerOnReset (placedOn 3 17 6)
    (t.line 17).owner = none ∧ t.mix.parkSource = 15 ∧ tget t.mix.storedTrim 17 = 32768 := by decide

/-- R24, R32, R169: a frame event steps a ramp and the tone phase, and leaves the rate though the reference's length is another. -/
theorem test_frame_event :
    let s := running.withMix { running.mix with parkGain := ⟨8192, 0⟩, tonePhase := 47 }
    let s := s.withClock { s.clock with rate := some 1000400000, pull := 1 }
    let t := after (.frameEvent (tall 0)) s
    t.mix.parkGain = ⟨8192, 128⟩ ∧ t.mix.tonePhase = 0 ∧ t.clock.rate = some 1000400000 ∧ t.clock.pull = 0 := by decide

/-- R190, R165: markers at offset 8 of one frame and 9 of the next are 257 bit periods apart, 257/256 of the generator's frame: out of
tolerance. At the same offset they are one frame apart: a sound period. -/
theorem test_link_reference_period :
    let word (k : Nat) : LineFrame := tset (tall 0) 0 (BitVec.ofNat 256 (k * 65536 * 2 ^ 40))
    let s := running.setRef 3 ⟨.acquiring, 5, false, false, 1000000000⟩
    let first := after (.referencePeriod 3 0) (after (.signallingWord (word 8)) s)
    (first.ref 3).count = 5 ∧ ((after (.referencePeriod 3 0) (after (.signallingWord (word 8)) first)).ref 3).count = 6 ∧
    ((after (.referencePeriod 3 0) (after (.signallingWord (word 9)) first)).ref 3).count = 0 := by decide

/-- A LOCKED LNK, no arrival's marker waiting, this long after the last one. -/
def silent (time : Nat) : State :=
  let s := running.setRef 3 ⟨.locked, 0, true, false, 1000000000⟩
  s.withClock { s.clock with sinceMarker := some time }

/-- R167: one missing period of LNK once two nominal periods have passed without a marker, and none before; no second one. -/
theorem test_link_missing_period :
    ((after (.missingPeriod 3) (silent 504000000000)).ref 3).count = 0 ∧
    (after (.missingPeriod 3) (silent 760000000000)).ref 3 = ⟨.locked, 1, false, false, 1000000000⟩ ∧
    ((after (.missingPeriod 3) (after (.missingPeriod 3) (silent 760000000000))).ref 3).count = 1 := by decide

/-- R167: a marker four nominal periods after the last one leaves two missing periods behind it, and is not classed. -/
theorem test_link_marker_after_gap :
    let s := silent 0
    let s := s.withClock { s.clock with marker := some 1024000000000 }
    (after (.referencePeriod 3 0) s).ref 3 = ⟨.locked, 2, true, false, 1000000000⟩ := by decide

/-- R167, R165: a missing period that nothing has taken is counted with the next signalling word. -/
theorem test_link_gap_is_counted :
    let t := after (.signallingWord (tall 0)) (silent 760000000000)
    (t.ref 3).count = 1 ∧ t.clock.missed = 1 ∧ t.clock.sinceMarker = some 1016000000000 := by decide

/-! ## Witnesses: states and operands that meet the hypotheses of the statements

Each is named for its statement and shows a state for every hypothesis list in it, at a boundary value of the operands. -/

/-- A chunk of eight records, the most one LOAD-CHUNK carries. -/
def eightRecords : List Byte := List.replicate 64 7

/-- A load of port 1 with its whole region declared, all but the last eight records received. -/
def nearlyLoaded : State := State.reset.setLoader 1 ⟨true, 0, 256, 248, 4800, some 4800, .none⟩

/-- The buffer held by port 1 with this timer. -/
def snapped (timer : Nat) : State :=
  State.reset.withMeter { State.reset.meter with buffer := some ⟨tall ⟨1, 1⟩, 1, timer⟩ }

theorem witness_StepRunsTheFrontCommand : State.reset.pending = [] := by decide

theorem witness_OnlyFrameEventsMoveCurrents :
    (∀ rx, Instr.abort 3 ≠ .frameEvent rx) ∧ Instr.abort 3 ≠ .powerOnReset := ⟨nofun, nofun⟩

theorem witness_LinkTransactionsRoundTrip :
    Instr.wellFormed (.loadChunk 3 (List.replicate 255 0)) = true ∧
    encodeLink (.loadChunk 3 (List.replicate 255 0)) = some (3, 0x01 :: 0x51 :: 255 :: List.replicate 255 0) ∧
    Instr.wellFormed (.readStatus 0 0xFF) = true ∧ encodeLink (.readStatus 0 0xFF) = some (0, [0xFF]) ∧
    taskRow (.clockStatus 0 []) = some ⟨0, 0x72, [], true, false⟩ := by decide

theorem witness_IntakeChecksRefuseTasks :
    Ready State.reset 3 ∧ knownTaskCode 0x00 = false ∧ knownTaskCode 0xFF = false ∧
    taskRow (.place 3 [12, 3]) = some ⟨3, 0x20, [12, 3], false, true⟩ ∧
    taskRow (.place 3 [12, 3, 0]) = some ⟨3, 0x20, [12, 3, 0], true, true⟩ ∧
    Ready (frozen State.reset) 3 ∧ (frozen State.reset).ports.freeze = true ∧
    firstCheck [(!false, .badArg, 0), (true && true, .frozen, 0)] = some (Reason.badArg, 0) ∧
    firstCheck [(!true, .badArg, 0), (true && true, .frozen, 0)] = some (Reason.frozen, 0) := by decide

theorem witness_TransactionsThatAreNotTaken :
    transactionPort (.abort 3) = some 3 ∧ ((after (.portReset 3) State.reset).port 3).held = true ∧
    writePort (.unknownTask 1 0xFF []) = some 1 ∧ writePort (.setCell 1 []) = some 1 ∧
    ((waiting (heldBy 2 6) 1 6 .unlimited).port 1).held = false ∧
    ((waiting (heldBy 2 6) 1 6 .unlimited).port 1).slot.isWorking = true := by decide

theorem witness_ReadsAnswerRecordAndStatusByte :
    (State.reset.port 0).held = false ∧ (State.reset.port 3).held = false ∧
    encodeLink (.claim 3 [24, 0, 0]) = some (3, [0x01, 0x30, 3, 24, 0, 0]) ∧ encodeLink (.abort 3) = some (3, [0x04]) ∧
    ((after (.portReset 3) State.reset).port 3).held = true := by decide

theorem witness_AbortEndsTheWaitingTask :
    (let s := after (.snap 3 []) State.reset
     (s.port 3).held = false ∧ (s.port 3).slot = .working 0x68 []) ∧
    (let s := waiting (heldBy 2 6) 1 6 .unlimited
     (s.port 1).held = false ∧ (0x30 : Byte) ≠ 0x68 ∧ (s.port 1).slot = .working 0x30 [7, 1, 0] ∧
      ∀ k, (tget (s.line k).waiters 1).isSome = true ↔ k = 6) ∧
    Ready State.reset 0 := by decide

theorem witness_PortResetClearsThePort :
    (State.reset.port 3).held = false ∧ ((after (.portReset 3) State.reset).port 3).held = true := by decide

theorem witness_ResetReleaseAndFreezeEvents :
    let s := frozen (State.reset.setPlayer 3 ⟨.paused, 254, .none, 0⟩)
    (s.player 3).state = .paused ∧ s.pending.head? ≠ some .freezeAsserted ∧
    (s.withPending [.freezeReleased, .freezeAsserted]).pending = .freezeReleased :: .freezeAsserted :: [] ∧
    StepOf 3 (.stepGroup 3) ∧ StepOf 3 (.examineMalformedStep 3) :=
  ⟨by decide, by decide, rfl, .inl ⟨9, by decide⟩, .inr (.inr rfl)⟩

theorem witness_MatrixTasksWriteTheirTargets :
    Ready (heldBy 3 23) 3 ∧ (heldBy 3 23).ports.freeze = false ∧ ((heldBy 3 23).busOwner 7 = 3 ∧
      ∀ l, (Line.contributor 23 : Contributor) = Line.contributor l → ((heldBy 3 23).line l).owner = some 3) ∧
    (State.reset.busOwner 0 = 0 ∧ ∀ l, (39 : Contributor) = Line.contributor l → (State.reset.line l).owner = some 0) ∧
    Ready State.reset 0 ∧ State.reset.ports.freeze = false := by decide

theorem witness_PlaceMovesTheLine :
    Ready (heldBy 3 23) 3 ∧ (heldBy 3 23).ports.freeze = false ∧
    (((heldBy 3 23).line 23).owner = some 3 ∧ ∀ b, some (7 : Bus) = some b → (heldBy 3 23).busOwner b = 3) ∧
    (((heldBy 3 23).line 23).owner = some 3 ∧ ∀ b, (none : Option Bus) = some b → (heldBy 3 23).busOwner b = 3) := by decide

/-- For TRIM and TONE, and for RELEASE and HAND of a line without waiters. -/
theorem witness_TrimAndToneWriteTheLine :
    Ready (heldBy 3 23) 3 ∧ (heldBy 3 23).ports.freeze = false ∧ ((heldBy 3 23).line 23).owner = some 3 := by decide

theorem witness_AckAttnClearsTheLatch :
    Ready (heldBy 3 23) 3 ∧ ((heldBy 3 23).line 0).owner = none ∧ ((heldBy 3 23).line 23).owner = some 3 := by decide

/-- For LINE-STATUS, SEQ-STATUS, WATCH, READ-NOTICES and CLOCK-STATUS: a ready port is all they ask. -/
theorem witness_LineStatusReportsTheRecord : Ready State.reset 0 ∧ Ready State.reset 3 := by decide

theorem witness_SeqStatusReportsLoaderAndPlayer : Ready (standing 3 255 [] State.reset) 3 := by decide

theorem witness_WatchAndReadNotices : Ready (State.reset.raise 3 23 .dropped) 3 := by decide

theorem witness_ClaimActsByTheOwner :
    Ready (heldBy 3 23) 0 ∧ (heldBy 3 23).ports.freeze = false ∧ ((heldBy 3 23).line 0).owner = none ∧
    ((heldBy 3 23).line 23).owner = some 3 ∧ (3 : Port) ≠ 0 ∧ wide 0 0 = 0 ∧ wide 0xFF 0xFF = 65535 ∧ wide 0xFF 0xFE = 65534 ∧
    Ready (heldBy 3 23) 3 := by decide

theorem witness_ReleaseFreesOrGrantsTheLine :
    (let s := heldBy 3 23
     Ready s 3 ∧ s.ports.freeze = false ∧ (s.line 23).owner = some 3 ∧ ∀ q, tget (s.line 23).waiters q = none) ∧
    (let s := waiting (waiting (heldBy 3 23) 0 23 (.frames 1)) 2 23 .unlimited
     Ready s 3 ∧ s.ports.freeze = false ∧ (s.line 23).owner = some 3 ∧ (tget (s.line 23).waiters 0).isSome = true ∧
      ∀ r : Port, r < 0 → tget (s.line 23).waiters r = none) := by decide

theorem witness_HandPassesTheLine :
    let s := waiting (heldBy 3 23) 0 23 (.frames 1)
    Ready s 3 ∧ s.ports.freeze = false ∧ (s.line 23).owner = some 3 ∧ (0 : Port) ≠ 3 ∧ (2 : Port) ≠ 3 := by decide

theorem witness_SeizeTakesTheLine :
    Ready (heldBy 3 23) 0 ∧ (heldBy 3 23).ports.freeze = false ∧ ((heldBy 3 23).line 0).owner = none ∧
    ((heldBy 3 23).line 23).owner = some 3 ∧ ((heldBy 0 23).line 23).owner = some 0 ∧ Ready (heldBy 0 23) 0 := by decide

/-- For ASSIGN and CLEAR-MATRIX. -/
theorem witness_AssignPassesTheBus :
    Ready (placedOn 3 23 7) 0 ∧ (placedOn 3 23 7).ports.freeze = false ∧ (placedOn 3 23 7).busOwner 7 = 3 := by decide

theorem witness_ClearMatrixFreesEverything :
    Ready (waiting (placedOn 3 23 7) 1 23 .unlimited) 0 ∧ (waiting (placedOn 3 23 7) 1 23 .unlimited).ports.freeze = false := by
  decide

theorem witness_ClaimWaitExpiryEndsTheWait :
    tget ((waiting (heldBy 3 23) 0 23 (.frames 0)).line 23).waiters 0 = some (.frames 0) ∧
    tget ((waiting (heldBy 3 23) 0 23 (.frames 1)).line 23).waiters 0 ≠ some (.frames 0) ∧
    tget ((heldBy 3 23).line 23).waiters 0 ≠ some (.frames 0) := by decide

theorem witness_TalkTasksMoveTheSlot :
    (let s := talking (heldBy 3 23) 3 23
     Ready s 3 ∧ (s.line 23).owner.isSome = true ∧ (s.line 23).owner = some 3 ∧ ∀ k ∈ (s.line 23).talk, (3 : Port) ≤ k.talker) ∧
    (let s := talking (heldBy 3 23) 3 23
     Ready s 0 ∧ (s.line 23).owner.isSome = true ∧ ∀ k ∈ (s.line 23).talk, (0 : Port) ≤ k.talker) ∧
    (let s := talking (heldBy 3 23) 3 23
     Ready s 3 ∧ (s.line 23).talk.map TalkSlot.talker = some 3) := by decide

theorem witness_LoadBeginStartsALoad :
    Ready State.reset 3 ∧ (State.reset.player 3).state = .idle ∧ wide 0 1 ≠ 0 ∧ (255 : Byte).toNat + wide 0 1 ≤ 256 ∧
    wide 1 0 ≠ 0 ∧ (0 : Byte).toNat + wide 1 0 ≤ 256 := by decide

theorem witness_LoadChunkStoresItsRecords :
    Ready nearlyLoaded 1 ∧ eightRecords.length = 8 * 8 ∧ (nearlyLoaded.loader 1).loading = true ∧
    (nearlyLoaded.loader 1).received + 8 ≤ (nearlyLoaded.loader 1).declared ∧ nearlyLoaded.cue.mem.wf = true := by decide

theorem witness_LoadsEnd :
    (Ready nearlyLoaded 1 ∧ (nearlyLoaded.loader 1).loading = true ∧
      (nearlyLoaded.loader 1).received ≠ (nearlyLoaded.loader 1).declared) ∧
    (let s := nearlyLoaded.setLoader 1 ⟨true, 255, 1, 1, 4800, some 0, .none⟩
     Ready s 1 ∧ (s.loader 1).loading = true ∧ (s.loader 1).received = (s.loader 1).declared ∧ (s.loader 1).timer = some 0) ∧
    (nearlyLoaded.loader 1).timer ≠ some 0 ∧ (State.reset.loader 1).loading = false := by decide

theorem witness_RunStartsAndHaltEndsThePlayer :
    Ready State.reset 3 ∧ (State.reset.player 3).state = .idle ∧ (State.reset.loader 3).loading = false ∧
    Ready (standing 3 255 [] State.reset) 3 ∧ ((standing 3 255 [] State.reset).player 3).state ≠ .idle := by decide

/-- The record bytes of an action step, with the bytes its kind does not use. -/
def spare : List Byte := [1, 2, 3, 4, 5, 6, 7, 8]

theorem witness_ActionStepsMirrorTheirTasks :
    (let a : Action := .cell 39 7 65535
     let s := standing 3 254 [actionRecord a spare] State.reset
     spare.length = 8 ∧ actionCoefficient a ≤ 65535 ∧ Examines s 3 (actionRecord a spare) ∧ (s.player 3).addr ≠ 255 ∧
      s.ports.freeze = false ∧ s.busOwner 7 = 3 ∧ ∀ l, (39 : Contributor) = Line.contributor l → (s.line l).owner = some 3) ∧
    (let a : Action := .tone 23 true
     let s := standing 3 0 [actionRecord a spare] State.reset
     Examines s 3 (actionRecord a spare) ∧ (s.line 23).owner ≠ some 3) ∧
    (let a : Action := .place 23 none (some 15)
     Examines (standing 3 0 [actionRecord a spare] (heldBy 3 23)) 3 (actionRecord a spare)) ∧
    (let a : Action := .trim 23 0
     Examines (standing 3 0 [actionRecord a spare] (heldBy 3 23)) 3 (actionRecord a spare)) := by decide

theorem witness_TalkStepsActAsTalkTasks :
    (let s := standing 3 254 [[0x04, 24, 16, 0xFF, 0xFF, 0xFF, 0xFF, 9]] (heldBy 3 23)
     Examines s 3 [0x04, num (23 : Line), num (15 : Source), 0xFF, 0xFF, 0xFF, 0xFF, 9] ∧ (s.player 3).addr ≠ 255 ∧
      (s.line 23).owner = some 3) ∧
    (let s := standing 3 0 [[0x05, 24, 1, 2, 3, 4, 5, 6]] (talking (heldBy 3 23) 3 23)
     Examines s 3 (0x05 :: num (23 : Line) :: [1, 2, 3, 4, 5, 6]) ∧ (s.player 3).addr ≠ 255 ∧
      (s.line 23).talk.map TalkSlot.talker = some 3) := by decide

theorem witness_WaitAndAwaitStepsHoldThePlayer :
    (let s := standing 3 255 [[0x07, 0, 0, 1, 2, 3, 4, 5]] State.reset
     Examines s 3 (0x07 :: 0 :: 0 :: [1, 2, 3, 4, 5])) ∧
    (let s := standing 3 255 [[0x08, 24, 2, 0xFF, 0xFF, 1, 0, 0]] State.reset
     Examines s 3 [0x08, num (23 : Line), 2, 0xFF, 0xFF, 1, 0, 0]) ∧
    (let s := standing 3 0 [[0x08, 1, 0, 0, 0, 0, 0, 0]] State.reset
     Examines s 3 [0x08, num (0 : Line), 0, 0, 0, 0, 0, 0] ∧ (s.line 0).attention = false) := by decide

theorem witness_PlayerTimersExpire :
    ((State.reset.setPlayer 3 ⟨.waiting 0, 255, .none, 0⟩).player 3).state = .waiting 0 ∧
    ((State.reset.setPlayer 3 ⟨.waiting 1, 255, .none, 0⟩).player 3).state ≠ .waiting 0 ∧
    ((State.reset.setPlayer 3 ⟨.awaiting (.frames 0) 23 .connected .goOn, 255, .none, 0⟩).player 3).state
      = .awaiting (.frames 0) 23 .connected .goOn ∧
    (∀ l cond mode, (State.reset.player 3).state ≠ .awaiting (.frames 0) l cond mode) := by
  refine ⟨by decide, by decide, by decide, fun l cond mode => ?_⟩
  simp [State.reset, State.player, Player.reset]

theorem witness_GroupStepStagesOrFaults :
    (let s := standing 3 253 [[9, 1, 3, 4, 5, 6, 7, 8], [1, 40, 8, 0xFF, 0xFF, 0, 0, 0]] State.reset
     Examines s 3 (0x09 :: 1 :: [3, 4, 5, 6, 7, 8]) ∧ (s.player 3).addr ≠ 255 ∧ s.ports.freeze = false ∧
      ∀ i < (1 : Byte).toNat, groupCheck s 3 ((s.player 3).addr + 1 + i) = none) ∧
    (let s := standing 3 254 [[9, 16, 3, 4, 5, 6, 7, 8], [1, 40, 8, 0, 0, 0, 0, 0]] State.reset
     Examines s 3 (0x09 :: 16 :: [3, 4, 5, 6, 7, 8]) ∧ groupCheck s 3 255 = some .ranOff) := by decide

theorem witness_EndAndBadRecordsEndThePlayer :
    Examines (standing 3 255 [[0x0A, 1, 2, 3, 4, 5, 6, 7]] State.reset) 3 (0x0A :: [1, 2, 3, 4, 5, 6, 7]) ∧
    (((standing 3 255 [] State.reset).player 3).state = .stepping ∧ (standing 3 255 [] State.reset).recordValid 3 255 = false) ∧
    (Examines (standing 3 0 [[0x0B, 0, 0, 0, 0, 0, 0, 0]] State.reset) 3 [0x0B, 0, 0, 0, 0, 0, 0, 0] ∧
      decodeStep [0x0B, 0, 0, 0, 0, 0, 0, 0] = none) ∧
    (Examines (standing 3 255 [[0x05, 25, 0, 0, 0, 0, 0, 0]] State.reset) 3 [0x05, 25, 0, 0, 0, 0, 0, 0] ∧
      decodeStep [0x05, 25, 0, 0, 0, 0, 0, 0] = none ∧
      stepOfKind 3 (byteAt [0x05, 25, 0, 0, 0, 0, 0, 0] 0) = some (.stepTalkOff 3)) := by decide

/-- Records at the ends of the ranges of R114, and just outside them. -/
theorem test_record_ranges :
    ([[1, 40, 8], [2, 24], [3, 24, 0, 0], [3, 24, 8, 16], [4, 24, 16], [5, 1], [6, 24, 1], [7], [8, 24, 2, 0, 0, 1],
      [9, 16], [10]].all fun r => (decodeStep r).isSome) = true ∧
    ([[0], [11], [1, 41, 8], [1, 40, 9], [2, 0], [3, 25, 0, 0], [3, 24, 9, 0], [3, 24, 8, 17], [4, 24, 17], [5, 25],
      [6, 24, 2], [8, 24, 3, 0, 0, 1], [8, 24, 2, 0, 0, 2], [9, 0], [9, 17]].all fun r => (decodeStep r).isNone) = true := by
  decide

theorem witness_ChangingStepsRunOffAndPause :
    Examines (standing 3 255 [actionRecord (.trim 23 65535) spare] State.reset) 3 (actionRecord (.trim 23 65535) spare) ∧
    actionCoefficient (.trim 23 65535) ≤ 65535 ∧
    (let s := frozen (standing 3 254 [[9, 16, 1, 2, 3, 4, 5, 6]] State.reset)
     Examines s 3 (0x09 :: 16 :: [1, 2, 3, 4, 5, 6]) ∧ (s.player 3).addr ≠ 255 ∧ s.ports.freeze = true) ∧
    (let s := standing 3 255 [0x04 :: num (23 : Line) :: num (15 : Source) :: [1, 2, 3, 4, 5]] State.reset
     Examines s 3 (0x04 :: num (23 : Line) :: num (15 : Source) :: [1, 2, 3, 4, 5]) ∧ (s.player 3).addr = 255) ∧
    (let s := standing 3 255 [0x05 :: num (0 : Line) :: [1, 2, 3, 4, 5, 6]] State.reset
     Examines s 3 (0x05 :: num (0 : Line) :: [1, 2, 3, 4, 5, 6]) ∧ (s.player 3).addr = 255) := by decide

theorem witness_SnapReadSnapAndExpiry :
    (Ready State.reset 3 ∧ ∀ b ∈ State.reset.meter.buffer, b.holder = 3) ∧
    (Ready (snapped 1) 1 ∧ (snapped 1).meter.buffer = some ⟨tall ⟨1, 1⟩, 1, 1⟩ ∧ (32 : Byte).toNat + (0 : Byte).toNat ≤ 32 ∧
      (0 : Byte).toNat + (32 : Byte).toNat ≤ 32) ∧
    (snapped 0).meter.buffer = some ⟨tall ⟨1, 1⟩, 1, 0⟩ ∧ (∀ b ∈ (snapped 1).meter.buffer, b.timer ≠ 0) := by decide

/-- A running part in which nothing is overdue. -/
theorem nothing_overdue_at_reset : NothingOverdue State.reset := by
  refine ⟨fun l p => ?_, fun p => ?_, fun p => ?_, fun p l c m => ?_, ?_⟩
  · simp [State.reset, State.line, LineTable.reset, LineRec.reset]
  · simp [State.chunkTimerDue, State.loader, State.reset, CueStore.reset, Loader.reset]
  · simp [State.waitTimerDue, State.player, State.reset, Player.reset]
  · simp [State.player, State.reset, Player.reset]
  · simp [State.snapshotDue, State.reset, MeterUnit.reset]

theorem witness_FrameEventMetersAndCapture :
    running.clock.running = true ∧ NothingOverdue running ∧ (∀ p, tget running.meter.waiting p = false) ∧
    (let s := running.withMeter { running.meter with waiting := tset running.meter.waiting 3 true }
     s.clock.running = true ∧ NothingOverdue s ∧ tget s.meter.waiting 3 = true ∧ ∀ q, q < 3 → tget s.meter.waiting q = false) :=
  ⟨by decide, nothing_overdue_at_reset, by decide, by decide, nothing_overdue_at_reset, by decide, by decide⟩

theorem witness_ReferenceTasksAndClockStatus :
    (Ready State.reset 0 ∧ (State.reset.ref 3).state = .off) ∧
    (Ready running 0 ∧ (3 : RefId).val ≠ 0 ∧ (3 : RefId) ≠ running.clock.selected) ∧
    (Ready running 0 ∧ (running.ref 0).state = .locked) ∧ Ready running 3 := by decide

/-- A marker has come, one nominal frame after the one before. -/
def withMarker (s : State) : State := s.withClock { s.clock with marker := some 256000000000, sinceMarker := some 0 }

/-- A marker has come, and this long after the one before. -/
def afterGap (time : Nat) (s : State) : State := s.withClock { s.clock with marker := some time, sinceMarker := some 0 }

theorem witness_PeriodsAreCounted :
    (PeriodEnds State.reset 0 ∧ soundInterval 0 (measuredLength State.reset 0 0) = true) ∧
    (let s := running.setRef 1 ⟨.acquiring, 4095, true, false, 1000000000⟩
     PeriodEnds s 1 ∧ soundInterval 1 (measuredLength s 1 1000500000) = true ∧
      soundInterval 1 (measuredLength s 1 999500000) = true ∧ soundInterval 1 (measuredLength s 1 1000500001) = false ∧
      soundInterval 1 (measuredLength s 1 999499999) = false) ∧
    (let s := withMarker (running.setRef 3 ⟨.acquiring, 0, true, false, 1000000000⟩)
     PeriodEnds s 3 ∧ soundInterval 3 (measuredLength s 3 0) = true) ∧
    (let s := withMarker (running.setRef 3 ⟨.acquiring, 0, false, false, 1000000000⟩)
     (s.ref 3).state ≠ .off ∧ (s.ref 3).armed = false ∧ (s.ref 3).reached = false ∧ s.clock.marker ≠ none ∧
      missingLeft s = 0) ∧
    (let s := running.setRef 3 ⟨.locked, 6, true, false, 1000000000⟩
     (s.ref 3).state ≠ .off ∧ (afterGap 512000000000 s).clock.marker ≠ none ∧ missingLeft (afterGap 512000000000 s) = 0 ∧
      missingLeft (afterGap 512000000001 s) = 1 ∧ missingLeft (afterGap 768000000001 s) = 2) ∧
    (let s := (running.setRef 3 ⟨.locked, 7, true, false, 1000000000⟩)
     let s := s.withClock { s.clock with sinceMarker := some 600000000000 }
     (s.ref 3).state ≠ .off ∧ (s.ref 3).reached = false ∧ 0 < missingLeft s) ∧ missingLeft State.reset = 0 ∧
    (let s := running.setRef 2 ⟨.locked, 7, false, false, 1000000000⟩
     (2 : RefId).val ≠ 0 ∧ (s.ref 2).state ≠ .off ∧ (s.ref 2).reached = false) ∧
    (running.ref 1).state = .off := by decide

theorem witness_LockAndLossMoveTheGenerator :
    (let s := State.reset.setRef 0 ⟨.acquiring, 255, true, true, 1000000000⟩
     s.lockDue 0 = true ∧ s.clock.running = false ∧ s.clock.selected.val = 0) ∧
    (let s := running.setRef 3 ⟨.acquiring, 4095, true, true, 1000000000⟩
     s.lockDue 3 = true ∧ s.clock.running = true) ∧
    (let s := running.setRef 3 ⟨.locked, 7, true, true, 1000000000⟩
     s.lossDue 3 = true) ∧
    running.lockDue 0 = false ∧ running.lossDue 0 = false := by decide

theorem witness_SignallingWordStepsTheDebounce :
    (let s := running.modLine 23 fun r => { r with connCount := 383, attnCount := 383 }
     s.clock.running = true ∧ NoSignalDue s) ∧
    (let s := withMarker (running.setRef 3 ⟨.acquiring, 4095, true, false, 1000000000⟩)
     s.clock.running = true ∧ NoSignalDue s ∧ (s.ref 3).state ≠ .off ∧ s.clock.marker ≠ none) ∧
    State.reset.clock.running = false := by decide

theorem witness_DebouncedEventsAreTaken :
    (let s := State.reset.modLine 23 fun r => { r with connCount := 384, attnCount := 384 }
     384 ≤ (s.line 23).connCount ∧ (s.line 23).connected = false ∧ 384 ≤ (s.line 23).attnCount ∧
      (s.line 23).attnRaised = false) ∧
    (let s := (heldBy 3 23).modLine 23 fun r => { r with connCount := 384, attnCount := 384, attnRaised := true }
     384 ≤ (s.line 23).connCount ∧ (s.line 23).connected = true ∧ 384 ≤ (s.line 23).attnCount ∧
      (s.line 23).attnRaised = true) ∧
    (let s := State.reset.modLine 23 fun r => { r with connCount := 383, attnCount := 383 }
     (s.line 23).connCount < 384 ∧ (s.line 23).attnCount < 384) := by decide

/-- For the outputs of a frame event too. -/
theorem witness_FrameEventStepsRampsAndTone :
    running.clock.running = true ∧ (∀ p, tget running.mix.staging p = none) ∧ State.reset.clock.running = false := by decide

/-- With two groups pending, and with none. -/
theorem witness_FrameEventAppliesGroupsAndTimers :
    let g : List Staged := [⟨44, .place 23 (some 7) none⟩, ⟨45, .cell 23 7 65535⟩]
    let groups := tset (tset running.mix.staging 3 (some g)) 0 (some [⟨1, .trim 0 0⟩])
    let s := running.withMix { running.mix with staging := groups }
    s.clock.running = true ∧ NothingOverdue s ∧ tget s.mix.staging 3 = some g ∧ (tget s.mix.staging 0).isSome = true ∧
    running.clock.running = true ∧ NothingOverdue running ∧ ∀ q, tget running.mix.staging q = none :=
  ⟨by decide, nothing_overdue_at_reset, by decide, by decide, by decide, nothing_overdue_at_reset, by decide⟩

theorem witness_ReturnIgnoresOwnReceiveAudio :
    let rx : InputFrame := tall 0
    let rx' : InputFrame := tset rx 2 (frameOf fun n => if n = 7 then 0x7FFFFF else 0)
    ∀ (link : Fin 5) (channel : Fin 8), link.val * 8 + channel.val ≠ (23 : Line).val →
      channelOf (tget rx link) channel = channelOf (tget rx' link) channel := by decide

/-! ## Refusals at the edges of the tables: a ready port, and each check in the way -/

/-- Port `p` reads REFUSED with this reason and detail. -/
def refused (c : Instr) (p : Port) (s : State) (why : Reason) (detail : Nat) : Bool :=
  reads c p s == some (.refused, why, detail)

theorem witness_LineStatusSeizeAndClearRefusals :
    Ready State.reset 0 ∧ Ready State.reset 1 ∧ Ready (frozen State.reset) 0 ∧
    ([refused (.lineStatus 0 []) 0 State.reset .badArg 0,
      refused (.lineStatus 0 [0]) 0 State.reset .badArg 0,
      refused (.lineStatus 0 [25]) 0 State.reset .badArg 0,
      refused (.seize 1 [1, 1]) 1 State.reset .badArg 0,
      refused (.seize 0 [1]) 0 (frozen State.reset) .frozen 0,
      refused (.seize 1 [0]) 1 State.reset .notSenior 255,
      refused (.seize 0 [25]) 0 State.reset .badArg 0,
      refused (.clearMatrix 1 [0]) 1 State.reset .badArg 0,
      refused (.clearMatrix 0 []) 0 (frozen State.reset) .frozen 0,
      refused (.clearMatrix 1 []) 1 State.reset .notSenior 255].all id) = true := by decide

theorem witness_LoadChunkAndWatchRefusals :
    Ready State.reset 1 ∧ Ready nearlyLoaded 1 ∧
    ([refused (.loadChunk 1 []) 1 nearlyLoaded .badArg 0,
      refused (.loadChunk 1 (List.replicate 72 0)) 1 nearlyLoaded .badArg 0,
      refused (.loadChunk 1 (List.replicate 9 0)) 1 nearlyLoaded .badArg 0,
      refused (.loadChunk 1 (List.replicate 8 0)) 1 State.reset .notLoading 0,
      refused (.loadChunk 1 (List.replicate 16 0)) 1 (nearlyLoaded.setLoader 1 ⟨true, 0, 256, 255, 4800, some 4800, .none⟩) .overrun 255,
      refused (.watch 1 [1, 1]) 1 State.reset .badArg 0].all id) = true := by decide

theorem witness_MatrixAndLineTaskRefusals :
    let s := heldBy 1 4
    Ready s 0 ∧ Ready s 1 ∧ Ready (frozen s) 1 ∧
    ([refused (.setCell 1 [5, 3, 0]) 1 s .badArg 0,
      refused (.setCell 1 [0, 3, 0, 0]) 1 s .badArg 0,
      refused (.setCell 1 [40, 9, 0, 0]) 1 s .badArg 0,
      refused (.setCell 1 [5, 8, 0, 0]) 1 s .notOwner 3,
      refused (.setCell 1 [24, 4, 0, 0]) 1 s .notOwner 255,
      refused (.setCell 1 [5, 3, 0, 0]) 1 (frozen s) .frozen 0,
      refused (.park 1 [0, 0, 0]) 1 s .notSenior 255,
      refused (.park 0 [0, 0, 0]) 0 s .badArg 0,
      refused (.place 1 [25, 3, 0]) 1 s .badArg 0,
      refused (.place 1 [5, 9, 0]) 1 s .badArg 0,
      refused (.place 1 [5, 3, 17]) 1 s .badArg 0,
      refused (.place 0 [5, 3, 16]) 0 s .notOwner 1,
      refused (.place 1 [5, 1, 16]) 1 s .notOwner 0,
      refused (.trim 1 [0, 0, 0]) 1 s .badArg 0,
      refused (.trim 1 [24, 0, 0]) 1 s .notOwner 255,
      refused (.tone 1 [5, 2]) 1 s .badArg 0,
      refused (.tone 0 [5, 1]) 0 s .notOwner 1,
      refused (.ackAttn 1 [25]) 1 s .badArg 0,
      refused (.ackAttn 0 [5]) 0 s .notOwner 1].all id) = true := by decide

theorem witness_OwnershipAndTalkTaskRefusals :
    let s := talking (heldBy 1 4) 1 4
    Ready s 0 ∧ Ready s 1 ∧ Ready s 2 ∧
    ([refused (.claim 2 [0, 0, 1]) 2 s .badArg 0,
      refused (.claim 2 [5, 0, 0]) 2 s .busy 1,
      refused (.claim 2 [5, 0, 1]) 2 (frozen s) .frozen 0,
      refused (.release 1 [25]) 1 s .badArg 0,
      refused (.release 1 [24]) 1 s .notOwner 255,
      refused (.hand 1 [5, 4]) 1 s .badArg 0,
      refused (.hand 2 [5, 3]) 2 s .notOwner 1,
      refused (.hand 1 [5, 1]) 1 s .badArg 0,
      refused (.assign 1 [8, 3]) 1 s .notSenior 255,
      refused (.assign 0 [9, 3]) 0 s .badArg 0,
      refused (.assign 0 [8, 4]) 0 s .badArg 0,
      refused (.talk 1 [5, 17, 0, 0, 0, 0]) 1 s .badArg 0,
      refused (.talk 1 [24, 16, 0, 0, 0, 0]) 1 s .notOwner 255,
      refused (.talk 2 [5, 16, 0, 0, 0, 0]) 2 s .notOwner 1,
      refused (.talk 1 [5, 16, 0, 0, 0, 0]) 1 (talking (heldBy 1 4) 0 4) .busy 0,
      refused (.untalk 1 [24]) 1 s .notHolder 255,
      refused (.untalk 0 [5]) 0 s .notHolder 1].all id) = true := by decide

theorem witness_LoadMeterAndClockTaskRefusals :
    let s := standing 2 7 [] State.reset
    Ready s 0 ∧ Ready s 1 ∧ Ready s 2 ∧ Ready (snapped 1) 2 ∧ Ready nearlyLoaded 1 ∧
    ([refused (.loadBegin 1 [255, 0, 0, 0, 0]) 1 s .badArg 0,
      refused (.loadBegin 1 [255, 0, 2, 0, 0]) 1 s .badArg 0,
      refused (.loadBegin 2 [255, 0, 1, 0, 0]) 2 s .busy 7,
      refused (.loadEnd 1 []) 1 s .notLoading 0,
      refused (.run 1 [1, 0]) 1 s .badArg 0,
      refused (.run 2 [0, 255]) 2 s .busy 7,
      refused (.run 1 [0, 0]) 1 nearlyLoaded .busy 248,
      refused (.snap 2 []) 2 (snapped 1) .locked 1,
      refused (.readSnap 2 [0, 32, 0]) 2 s .noData 255,
      refused (.readSnap 2 [0, 32, 0]) 2 (snapped 1) .notHolder 1,
      refused (.readSnap 1 [0, 32, 2]) 1 (snapped 1) .badArg 0,
      refused (.readSnap 1 [1, 32, 1]) 1 (snapped 1) .badArg 0,
      refused (.refEnable 1 [1, 1]) 1 s .notSenior 255,
      refused (.refEnable 0 [4, 1]) 0 s .badArg 0,
      refused (.refEnable 0 [3, 2]) 0 s .badArg 0,
      refused (.refEnable 0 [0, 0]) 0 s .badArg 0,
      refused (.refSelect 0 [4]) 0 s .badArg 0,
      refused (.refSelect 0 [3]) 0 s .noLock 0,
      refused (.refSelect 0 [0]) 0 s .noLock 1].all id) = true := by decide

/-! ## Witnesses of the laws: a state that meets each, from which a step answers next -/

/-- A running part in which port 3 owns line 24 on bus 8, with a talk slot, and port 1 waits for it. -/
def lively : State :=
  let s := waiting ((running.modLine 23 fun r =>
    { r with connected := true, status := .placed, owner := some 3, bus := some 7, talk := some ⟨0, 5, 32768, 8192⟩ })) 1 23
    (.frames 1)
  let s := s.withMix (s.mix.talkTaken 23 ⟨0, 5, 32768, 8192⟩)
  (s.withMix (s.mix.writeCells (fun c b => c == 23 && b == 7) 65535)).withPending [.place 3 [24, 0, 16]]

theorem witness_OwnershipLawIsKept : OwnershipLaw lively ∧ SequenceLaw lively ∧ ∃ t, step lively = .next t :=
  ⟨by decide, by decide, _, rfl⟩

theorem witness_BankAndTalkLawsAreKept : BankLaw lively ∧ TalkWritesLaw lively ∧ ∃ t, step lively = .next t :=
  ⟨by decide, by decide, _, rfl⟩

theorem witness_SlotLawIsKept : SlotLaw lively ∧ ∃ t, step lively = .next t := ⟨by decide, _, rfl⟩

theorem witness_NoticeLawIsKept : NoticeLaw lively ∧ ∃ t, step lively = .next t := ⟨by decide, _, rfl⟩

theorem witness_ClockLawIsKept : ClockLaw lively ∧ ∃ t, step lively = .next t := ⟨by decide, _, rfl⟩

theorem witness_SequenceAndMemoryLawsAreKept :
    let s := (after (.loadChunk 1 [10, 0, 0, 0, 0, 0, 0, 1]) (after (.loadBegin 1 [255, 0, 1, 0, 0]) State.reset)).withPending
      [.loadEnd 1 []]
    SequenceLaw s ∧ MemoryLaw s ∧ ∃ t, step s = .next t := ⟨by decide, by decide, _, rfl⟩

theorem witness_OutputAndDebounceLawsAreKept : OutputLaw lively ∧ DebounceLaw lively ∧ ∃ t, step lively = .next t :=
  ⟨by decide, by decide, _, rfl⟩

end Sys2Proof.Tests
end

namespace Sys2Proof.Proofs.Refusals

open Sys2Proof Sys2Proof.Machine Sys2Proof.Safety

/-! ## Ordered refusal tables -/

/-- No check of the empty table applies. -/
theorem forall_firstCheck_nil {Q : Reason × Nat → Prop} : ∀ x ∈ firstCheck [], Q x := by simp [firstCheck]

/-- A table's first check answers where it applies, and the rest of the table where it does not. -/
theorem forall_firstCheck_cons {applies : Bool} {why : Reason} {detail : Nat} {rest : List (Bool × Reason × Nat)}
    {Q : Reason × Nat → Prop} :
    (∀ x ∈ firstCheck ((applies, why, detail) :: rest), Q x) ↔
      (applies = true → Q (why, detail)) ∧ (applies = false → ∀ x ∈ firstCheck rest, Q x) := by
  cases applies <;> simp [firstCheck]

/-- The block that `body` is refuses a task it is handed in state `s` by the first check of the table that applies. -/
def BlockRefuses (body : State → TaskEnd) (s : State) (checks : List (Bool × Reason × Nat)) : Prop :=
  ∀ x ∈ firstCheck checks, body s = s.refuse x.1 x.2

/-! ## Intake in front of a block's table (R179) -/

/-- An argument string of the wrong length is refused first. -/
theorem intake_wrong_length (s : State) {ok : Bool} (hok : ok = false) (changing : Bool) (body : State → TaskEnd) :
    s.intake ok changing body = s.refuse .badArg 0 := by
  simp [State.intake, hok]

/-- A changing task of the right length is refused under FREEZE. -/
theorem intake_frozen (s : State) {ok : Bool} (hok : ok = true) (hf : s.ports.freeze = true) (body : State → TaskEnd) :
    s.intake ok true body = s.refuse .frozen 0 := by
  simp [State.intake, hok, hf]

/-- A task refused at intake or by its block leaves a ready port's part as it was but for the result. -/
theorem writeTask_refused_of_intake {s : State} {p : Port} (h : Ready s p) {ok changing : Bool} {body : State → TaskEnd}
    {why : Reason} {detail : Nat} (refuses : (s.taken p).intake ok changing body = (s.taken p).refuse why detail)
    (code : Byte) (args : List Byte) : Refused s (s.writeTask p code args ok changing body) p code args why detail := by
  have ends : s.writeTask p code args ok changing body =
      (((s.taken p).intake ok changing body).state.settle p code args
        ((s.taken p).intake ok changing body).result).respond p [] :=
    State.writeTask_ready h code args ok changing body
  rw [ends, refuses]
  exact State.refused_spec h code args why detail

/-- The table of a task that FREEZE does not hold: its length, then its block's table. -/
theorem refusedByFirst_of_served {c : Instr} {s : State} {p : Port} {code : Byte} {args : List Byte} {ok : Bool}
    {body : State → TaskEnd} {checks : List (Bool × Reason × Nat)} (h : Ready s p)
    (run : exec c s = .next (s.writeTask p code args ok false body)) (block : BlockRefuses body (s.taken p) checks) :
    RefusedByFirst c s p code args ((!ok, .badArg, 0) :: checks) := by
  simp only [RefusedByFirst, forall_firstCheck_cons, Bool.not_eq_true', Bool.not_eq_false']
  refine ⟨fun short => ?_, fun hok x hx => ?_⟩
  · exact ⟨_, run, writeTask_refused_of_intake h (intake_wrong_length _ short _ _) code args⟩
  · exact ⟨_, run, State.writeTask_refuses h hok (.inl rfl) (block x hx) code args⟩

/-- The table of a changing task: its length, FREEZE, then its block's table. -/
theorem refusedByFirst_of_changing {c : Instr} {s : State} {p : Port} {code : Byte} {args : List Byte} {ok : Bool}
    {body : State → TaskEnd} {checks : List (Bool × Reason × Nat)} (h : Ready s p)
    (run : exec c s = .next (s.writeTask p code args ok true body)) (block : BlockRefuses body (s.taken p) checks) :
    RefusedByFirst c s p code args ((!ok, .badArg, 0) :: (s.ports.freeze, .frozen, 0) :: checks) := by
  have level : (s.taken p).ports.freeze = s.ports.freeze := (State.taken_port s p).2
  simp only [RefusedByFirst, forall_firstCheck_cons, Bool.not_eq_true', Bool.not_eq_false']
  refine ⟨fun short => ?_, fun hok => ⟨fun hf => ?_, fun hf x hx => ?_⟩⟩
  · exact ⟨_, run, writeTask_refused_of_intake h (intake_wrong_length _ short _ _) code args⟩
  · exact ⟨_, run, writeTask_refused_of_intake h (intake_frozen _ hok (level.trans hf) _) code args⟩
  · exact ⟨_, run, State.writeTask_refuses h hok (.inr hf) (block x hx) code args⟩

/-! ## The tables of LINE-STATUS, SEIZE and CLEAR-MATRIX at their blocks -/

/-- A number outside 1 to 24 names no line. -/
theorem lineArg_of_not_inRange {n : Nat} (h : inRange 1 24 n = false) : lineArg n = none := by
  have outside : ¬ (1 ≤ n ∧ n ≤ 24) := by simpa [inRange] using h
  exact dif_neg outside

/-- R72 check 2. -/
theorem taskLineStatus_refuses (s : State) (args : List Byte) :
    BlockRefuses (fun t => t.taskLineStatus args) s [(!inRange 1 24 (byteAt args 0), .badArg, 0)] := by
  simp only [BlockRefuses, forall_firstCheck_cons, Bool.not_eq_true']
  refine ⟨fun outside => ?_, fun _ => forall_firstCheck_nil⟩
  simp only [State.taskLineStatus, lineArg_of_not_inRange outside]

/-- R92 checks 3 and 4. -/
theorem taskSeize_refuses (s : State) (p : Port) (args : List Byte) :
    BlockRefuses (fun t => t.taskSeize p args) s
      [(p != 0, .notSenior, 255), (!inRange 1 24 (byteAt args 0), .badArg, 0)] := by
  simp only [BlockRefuses, forall_firstCheck_cons, Bool.not_eq_true', bne_iff_ne, bne_eq_false_iff_eq]
  refine ⟨fun junior => ?_, fun senior => ⟨fun outside => ?_, fun _ => forall_firstCheck_nil⟩⟩
  · exact if_pos junior
  · simp only [State.taskSeize, senior, ne_eq, not_true_eq_false, if_false, lineArg_of_not_inRange outside]

/-- R98 check 3. -/
theorem taskClearMatrix_refuses (s : State) (p : Port) :
    BlockRefuses (fun t => t.taskClearMatrix p) s [(p != 0, .notSenior, 255)] := by
  simp only [BlockRefuses, forall_firstCheck_cons, bne_iff_ne]
  exact ⟨fun junior => if_pos junior, fun _ => forall_firstCheck_nil⟩

/-- Settles O48: each table is the intake's checks in front of the block's own. -/
theorem lineStatusSeizeAndClearRefusals : Obligations.LineStatusSeizeAndClearRefusals := by
  intro p args s ready
  refine ⟨?lineStatus, ?seize, ?clearMatrix⟩
  case lineStatus => exact refusedByFirst_of_served ready rfl (taskLineStatus_refuses _ args)
  case seize => exact refusedByFirst_of_changing ready rfl (taskSeize_refuses _ p args)
  case clearMatrix => exact refusedByFirst_of_changing ready rfl (taskClearMatrix_refuses _ p)

end Sys2Proof.Proofs.Refusals

namespace Sys2Proof.Proofs.CueStoreRefusals

open Sys2Proof Sys2Proof.Machine Sys2Proof.Safety Sys2Proof.Proofs.Refusals

/-- R124 check 1 names the argument strings that are not one to eight whole records of 8 bytes. -/
theorem not_wholeRecords (n : Nat) :
    (!(decide (8 ≤ n) && decide (n ≤ 64) && n % 8 == 0)) = (n == 0 || decide (64 < n) || n % 8 != 0) := by
  rw [Bool.eq_iff_iff]
  simp only [Bool.not_eq_true', Bool.and_eq_false_iff, Bool.or_eq_true, decide_eq_false_iff_not, decide_eq_true_eq,
    beq_iff_eq, beq_eq_false_iff_ne, bne_iff_ne]
  omega

/-- R124 checks 2 and 3. -/
theorem taskLoadChunk_refuses (s : State) (p : Port) (args : List Byte) :
    BlockRefuses (fun t => t.taskLoadChunk p args) s
      [(!(s.loader p).loading, .notLoading, 0),
        (decide ((s.loader p).declared < (s.loader p).received + args.length / 8), .overrun, (s.loader p).received)] := by
  simp only [BlockRefuses, forall_firstCheck_cons, Bool.not_eq_false', decide_eq_true_eq]
  refine ⟨fun idle => if_pos idle, fun loading => ⟨fun overrun => ?_, fun _ => forall_firstCheck_nil⟩⟩
  have passes : ¬ (!(s.loader p).loading) = true := by simp [loading]
  exact (if_neg passes).trans (if_pos overrun)

/-- Settles O49: the length check at intake, then the loader's checks, which find the loader as it was; WATCH has the
length alone, so the table of its block is empty. -/
theorem loadChunkAndWatchRefusals : Obligations.LoadChunkAndWatchRefusals := by
  intro p args s ready
  refine ⟨?loadChunk, ?watch⟩
  case loadChunk =>
    have block := taskLoadChunk_refuses (s.taken p) p args
    rw [State.taken_loader] at block
    rw [← not_wholeRecords]
    exact refusedByFirst_of_served ready rfl block
  case watch => exact refusedByFirst_of_served ready rfl forall_firstCheck_nil

end Sys2Proof.Proofs.CueStoreRefusals


namespace Sys2Proof.Proofs.Courses

open Sys2Proof Sys2Proof.Machine Sys2Proof.Safety

/-! ## The moves that commands are made of

Every command is a course of the moves below. A move names one shared operation with what the commands have checked before
they make it, so that a law is proved once per move and not once per command. -/

/-- What a running Cue Player may become without being PAUSED or PENDING: it stays in its region, and where it ends, it ends
at its end address (R128, R129). -/
def Walks (x y : Player) : Prop :=
  x.state ≠ .idle ∧ x.state ≠ .pending ∧ y.state ≠ .pending ∧ y.state ≠ .paused ∧
  (x.addr ≤ 255 → x.endAddr ≤ 255 → y.addr ≤ 255 ∧ y.endAddr ≤ 255) ∧ (y.state = .idle → y.addr = y.endAddr)

/-- Moves of the Line Table with the bank (R42 to R112), and the debounced events (R52 to R58). -/
inductive LineMove : State → State → Prop where
  | act (s : State) (p : Port) (a : Action) : Owns s p a → actionCoefficient a ≤ 65535 → LineMove s (s.performAction a)
  | park (s : State) (x : Source) (v : Nat) : v ≤ 65535 → LineMove s (s.withMix (s.mix.writePark x v))
  | attention (s : State) (l : Line) : LineMove s (s.setAttention l false)
  | grant (s : State) (l : Line) (p : Port) : (s.line l).owner = none → LineMove s (s.modLine l fun r => r.granted p)
  | changeOwner (s : State) (l : Line) (prev : Port) (new : Option Port) (actor : Port) : (s.line l).owner = some prev →
      (new = none → ∀ q, tget (s.line l).waiters q = none) → LineMove s (s.changeOwner l prev new actor)
  | assignBus (s : State) (b : Bus) (q : Port) : LineMove s (s.assignBus b q)
  | clearAll (s : State) : LineMove s s.clearAll
  | endWait (s : State) (l : Line) (p : Port) (why : Reason) : (tget (s.line l).waiters p).isSome = true →
      LineMove s (s.endWait l p why)
  | talkOn (s : State) (l : Line) (x : TalkSlot) : s.talkDenied x.talker l = none → x.gain ≤ 65535 → x.duck ≤ 32768 →
      LineMove s (s.talkOn l x)
  | clearTalks (s : State) (sel : Line → Bool) : LineMove s (s.clearTalks sel)
  | applyPending (s : State) (p : Port) : LineMove s (s.applyPending p)
  | connect (s : State) (l : Line) : LineMove s (s.takeConnect l)
  | disconnect (s : State) (l : Line) : LineMove s (s.takeDisconnect l)
  | attentionRaised (s : State) (l : Line) : LineMove s (s.takeAttentionRaised l)
  | attentionDropped (s : State) (l : Line) : LineMove s (s.takeAttentionDropped l)
  | debounce (s : State) (rx : LineFrame) : (∀ l, (s.line l).connCount < 384 ∧ (s.line l).attnCount < 384) →
      LineMove s (s.stepDebounce rx)

/-- Moves of the Cue Store and the loaders (R116 to R127). -/
inductive LoadMove : State → State → Prop where
  | load (s : State) (p : Port) (offset count ms : Nat) (o : LoadOutcome) : count ≠ 0 → offset + count ≤ 256 →
      100 ≤ ms → ms ≤ 10000 → (s.player p).state = .idle →
      LoadMove s ((s.markRange p offset count false).setLoader p ⟨true, offset, count, 0, msFrames ms, some (msFrames ms), o⟩)
  | chunk (s : State) (p : Port) (args : List Byte) : (s.loader p).loading = true → args.length % 8 = 0 →
      (s.loader p).received + args.length / 8 ≤ (s.loader p).declared →
      LoadMove s ((s.withCue { s.cue with
          mem := s.cue.mem.writeBytes (recordByte p ((s.loader p).offset + (s.loader p).received) 0) args }).setLoader p
        { s.loader p with received := (s.loader p).received + args.length / 8, timer := some (s.loader p).timeout })
  | finish (s : State) (p : Port) : (s.loader p).loading = true →
      LoadMove s ((s.markRange p (s.loader p).offset (s.loader p).declared true).setLoader p ((s.loader p).ended .done))
  | stop (s : State) (p : Port) (o : LoadOutcome) : LoadMove s (s.setLoader p ((s.loader p).ended o))

/-- Moves of the Cue Players and their groups (R128 to R143). -/
inductive PlayerMove : State → State → Prop where
  | run (s : State) (p : Port) (a : Nat) : a ≤ 255 → (s.player p).state = .idle → (s.loader p).loading = false →
      PlayerMove s (s.setPlayer p { s.player p with state := .stepping, addr := a })
  | ends (s : State) (p : Port) (why : EndReason) (a : Nat) : ((s.player p).addr ≤ 255 → a ≤ 255) →
      PlayerMove s (s.endPlayer p why a)
  | walk (s : State) (x : Table 4 Player) : (∀ p, tget x p = s.player p ∨ Walks (s.player p) (tget x p)) →
      PlayerMove s (s.withPlayers x)
  | pause (s : State) (p : Port) (b : StepBody) : s.ports.freeze = true → (s.player p).state = .stepping →
      (s.player p).addr ≠ 255 → s.recordValid p (s.player p).addr = true →
      decodeStep (s.record p (s.player p).addr) = some b → b.heldByFreeze = true →
      PlayerMove s (s.setPlayer p { s.player p with state := .paused })
  | stage (s : State) (p : Port) (g : List Staged) : (s.player p).state = .stepping → 1 ≤ g.length → g.length ≤ 16 →
      ((s.player p).addr ≤ 255 → (s.player p).addr + g.length < 255) →
      (∀ a ∈ g, Owns s p a.action ∧ actionCoefficient a.action ≤ 65535) →
      PlayerMove s ((s.setPlayer p { s.player p with state := .pending }).withMix
        { s.mix with staging := tset s.mix.staging p (some g) })

/-- Moves of the Meter Unit, with the completions it delivers (R157 to R163). -/
inductive MeterMove : State → State → Prop where
  | unlock (s : State) : MeterMove s (s.withMeter { s.meter with buffer := none })
  | report (s : State) (o : Table 32 (Int × Bool)) : (∀ i, (tget o i).1.natAbs ≤ 8388608) →
      MeterMove s (s.withMeter { s.meter with
        live := tmake fun i => (tget s.meter.live i).report (tget o i).1.natAbs (tget o i).2 })
  | capture (s : State) : MeterMove s s.capture
  | abort (s : State) (p : Port) (r : Result) : workingCode (s.port p).slot = some 0x68 →
      MeterMove s ((s.withMeter { s.meter with waiting := tset s.meter.waiting p false }).deliver p r)

/-- Moves of the Frame Clock Unit (R165 to R174). -/
inductive ClockMove : State → State → Prop where
  | enable (s : State) (r : RefId) : (s.ref r).state = .off → ClockMove s (s.startAcquiring r)
  | disable (s : State) (r : RefId) : r ≠ RefId.int → r ≠ s.clock.selected →
      ClockMove s (s.setRef r { s.ref r with state := .off, count := 0, armed := false, reached := false })
  | follow (s : State) (r : RefId) : (s.ref r).state = .locked → s.clock.running = true →
      ClockMove s (s.withClock { s.clock with selected := r, generator := .following, pull := Config.pullFrames })
  | select (s : State) (r : RefId) : (s.ref r).state = .locked → s.clock.running = false →
      ClockMove s (s.withClock { s.clock with selected := r })
  | lock (s : State) (r : RefId) : s.lockDue r = true → ClockMove s (s.lockReference r)
  | lose (s : State) (r : RefId) : s.lossDue r = true → ClockMove s (s.loseReference r)
  | missed (s : State) (r : RefId) : r ≠ RefId.int → ClockMove s (s.missed r)
  | arrival (s : State) (r : RefId) (n : Nat) : s.arrivalTaken r = true → ClockMove s (s.arrival r n)
  | marker (s : State) (offset : Option Nat) : ClockMove s (s.withClock (s.clock.timeMarker offset))

/-- The moves that make up the tasks at their blocks and the part's own steps. None makes a slot WORKING. -/
inductive BlockMove : State → State → Prop where
  | notice (s : State) (w : Table 4 (Table 24 Bool)) (e : Table 4 (Table 24 EventSet)) (f : Bool) (x : Table 4 Bool) :
      BlockMove s (s.withNotice { s.notice with watch := w, events := e, refChange := f, line := x })
  | line {s t : State} : LineMove s t → BlockMove s t
  | load {s t : State} : LoadMove s t → BlockMove s t
  | player {s t : State} : PlayerMove s t → BlockMove s t
  | meter {s t : State} : MeterMove s t → BlockMove s t
  | clock {s t : State} : ClockMove s t → BlockMove s t
  /-- An ABORT that finds neither a capture nor a wait: no reachable slot is so (R180), log 16. -/
  | stray (s : State) (p : Port) (code : Byte) (r : Result) : workingCode (s.port p).slot = some code → code ≠ 0x68 →
      (∀ l, (tget (s.line l).waiters p).isSome = false) → BlockMove s (s.deliver p r)
  | tick (s : State) : BlockMove s s.tickTimers

/-- The assertion of a port's reset line in the blocks (R184), before the notice lines follow. -/
def portCleared (s : State) (p : Port) : State :=
  let t := s.modPort p fun _ => { CtrlPort.reset with held := true }
  let t := (t.withdrawWaits p).clearTalksOf p
  let t := t.endPlayers (fun q => q == p) .portReset
  ((t.abandonLoad p).resetMeter p).resetNotices p

/-- A move of the part: of its blocks, or of a port's slot, flags and response (R176 to R184). -/
inductive Move : State → State → Prop where
  | block {s t : State} : BlockMove s t → Move s t
  | writeNotTaken (s : State) (p : Port) (v : Bool) : (s.port p).held = false →
      Move s (s.modPort p fun x => { x with writeNotTaken := v })
  | respond (s : State) (p : Port) (more : List Byte) : (s.port p).held = false → Move s (s.respond p more)
  | complete (s : State) (p : Port) (code : Byte) (args : List Byte) (r : Result) : Ready s p →
      Move s (s.complete p code args r)
  | claimWaits (s : State) (p q : Port) (l : Line) (args : List Byte) (w : TimeLeft) : Ready s p →
      (s.line l).owner = some q → q ≠ p →
      Move s ((s.modLine l fun r => { r with waiters := tset r.waiters p (some w) }).goWorking p 0x30 args)
  | snapWaits (s : State) (p : Port) (args : List Byte) : Ready s p →
      Move s ((s.withMeter { s.meter with waiting := tset s.meter.waiting p true }).goWorking p 0x68 args)
  | markRead (s : State) (p : Port) : Move s (s.markRead p)
  | reset (s : State) (p : Port) : Move s (portCleared s p)
  | release (s : State) (p : Port) : Move s (s.modPort p fun x => { x with held := false })

/-- A move of a frame event: any other, or one of its parts that move currents, outputs and the tone phase (R9). -/
inductive FrameMove : State → State → Prop where
  | other {s t : State} : Move s t → FrameMove s t
  | ramps (s : State) : FrameMove s (s.withMix s.mix.stepRamps)
  | transmit (s : State) (x : Table 32 Int) : (∀ i, -8388608 ≤ tget x i ∧ tget x i ≤ 8388607) →
      FrameMove s (s.withMix { s.mix with out := x })
  | phase (s : State) : FrameMove s (s.withMix { s.mix with tonePhase := (s.mix.tonePhase + 1) % 48 })

/-- Any number of moves of blocks. -/
abbrev BlockMoves : State → State → Prop := Relation.ReflTransGen BlockMove

/-- Any number of moves. -/
abbrev Moves : State → State → Prop := Relation.ReflTransGen Move

/-- Any number of moves of a frame event. -/
abbrev FrameMoves : State → State → Prop := Relation.ReflTransGen FrameMove

/-- What every move keeps, any number of moves keeps. -/
theorem kept_of_moves {R : State → State → Prop} {P : State → Prop} (h : ∀ s t, R s t → P s → P t) {s t : State}
    (m : Relation.ReflTransGen R s t) (hs : P s) : P t := by
  induction m with
  | refl => exact hs
  | tail _ last ih => exact h _ _ last ih

theorem BlockMoves.moves {s t : State} (m : BlockMoves s t) : Moves s t :=
  Relation.ReflTransGen.lift id (fun _ _ h => Move.block h) _ _ m

theorem Moves.frameMoves {s t : State} (m : Moves s t) : FrameMoves s t :=
  Relation.ReflTransGen.lift id (fun _ _ h => FrameMove.other h) _ _ m

/-- Rounds that are each made of moves are made of moves. -/
theorem foldl_moves {β : Type} {R : State → State → Prop} {f : State → β → State}
    (h : ∀ s b, Relation.ReflTransGen R s (f s b)) (l : List β) (s : State) : Relation.ReflTransGen R s (l.foldl f s) := by
  induction l generalizing s with
  | nil => exact .refl
  | cons b rest ih => exact (h s b).trans (ih _)

/-- The notice lines are driven by a move of the Notice Unit. -/
theorem driveNotices_move (s : State) : BlockMove s s.driveNotices :=
  .notice s s.notice.watch s.notice.events s.notice.refChange _

/-- Events are raised by a move of the Notice Unit. -/
theorem raise_move (s : State) (q : Port) (l : Line) (k : EventKind) : BlockMove s (s.raise q l k) :=
  .notice s s.notice.watch _ s.notice.refChange s.notice.line

/-- Driving the notice lines after moves of blocks is a move of blocks. -/
theorem BlockMoves.driven {s t : State} (m : BlockMoves s t) : BlockMoves s t.driveNotices := m.tail (driveNotices_move t)

/-! ## The frames of the groups of moves -/

/-- A move of the Cue Store touches nothing else. -/
theorem LoadMove.frame {s t : State} (m : LoadMove s t) : t.lineTable = s.lineTable ∧ t.mix = s.mix ∧
    t.players = s.players ∧ t.notice = s.notice ∧ t.meter = s.meter ∧ t.clock = s.clock ∧ t.ports = s.ports ∧
    t.pending = s.pending := by
  cases m <;> simp

/-- A move of the Cue Players touches only players and groups. -/
theorem PlayerMove.frame {s t : State} (m : PlayerMove s t) : t.lineTable = s.lineTable ∧
    t.mix = { s.mix with staging := t.mix.staging } ∧ t.cue = s.cue ∧ t.notice = s.notice ∧ t.meter = s.meter ∧
    t.clock = s.clock ∧ t.ports = s.ports ∧ t.pending = s.pending := by
  cases m with
  | ends p why a => simp [State.endPlayer]
  | _ => simp

/-- A move of the Meter Unit touches only meters, slots and the unread marks. -/
theorem MeterMove.frame {s t : State} (m : MeterMove s t) : t.lineTable = s.lineTable ∧ t.mix = s.mix ∧ t.cue = s.cue ∧
    t.players = s.players ∧ t.clock = s.clock ∧ t.pending = s.pending := by
  cases m <;> simp

/-- The completions of a capture leave the FREEZE level. -/
theorem deliverAll_freeze (s : State) (who : Port → Bool) (r : Port → Result) :
    (s.deliverAll who r).ports.freeze = s.ports.freeze :=
  foldl_keeps _ (fun t => t.ports.freeze) (fun t q => by
    split
    · exact (State.deliver_spec t q (r q)).2.1
    · rfl) _ s

/-- A lock leaves all of the Notice Unit but the reference-change flag. -/
theorem lockReference_notice (s : State) (r : RefId) :
    (s.lockReference r).notice = { s.notice with refChange := (s.lockReference r).notice.refChange } := by
  unfold State.lockReference State.flagReference
  dsimp only
  (repeat' split) <;> simp

/-- A loss leaves all of the Notice Unit but the reference-change flag. -/
theorem loseReference_notice (s : State) (r : RefId) :
    (s.loseReference r).notice = { s.notice with refChange := (s.loseReference r).notice.refChange } := by
  unfold State.loseReference State.flagReference
  dsimp only
  split <;> simp

/-- A due lock or loss leaves all of the Notice Unit but the reference-change flag. -/
theorem takeLockOrLoss_notice (s : State) (r : RefId) :
    (s.takeLockOrLoss r).notice = { s.notice with refChange := (s.takeLockOrLoss r).notice.refChange } := by
  unfold State.takeLockOrLoss
  split
  · exact lockReference_notice s r
  · split
    · exact loseReference_notice s r
    · rfl

/-- A missing period leaves all of the Notice Unit but the reference-change flag. -/
theorem missed_notice (s : State) (r : RefId) :
    (s.missed r).notice = { s.notice with refChange := (s.missed r).notice.refChange } := by
  have blocks : (s.missed r).notice = (s.takeLockOrLoss r).notice := by
    unfold State.missed
    dsimp only
    split <;> simp
  rw [blocks]
  exact takeLockOrLoss_notice s r

/-- Missing periods leave all of the Notice Unit but the reference-change flag. -/
theorem missMany_notice (n : Nat) (s : State) :
    (s.missMany n).notice = { s.notice with refChange := (s.missMany n).notice.refChange } := by
  induction n generalizing s with
  | zero => rfl
  | succ n ih =>
    rw [State.missMany, ih, missed_notice]

/-- An arrival leaves all of the Notice Unit but the reference-change flag. -/
theorem arrival_notice (s : State) (r : RefId) (n : Nat) :
    (s.arrival r n).notice = { s.notice with refChange := (s.arrival r n).notice.refChange } := by
  have blocks : (s.arrival r n).notice =
      ((if r = RefId.lnk then s.missMany s.missingDue else s).takeLockOrLoss r).notice := by
    unfold State.arrival
    dsimp only
    (repeat' split) <;> simp
  rw [blocks, takeLockOrLoss_notice]
  split
  · rw [missMany_notice]
  · rfl

/-- A move of the Frame Clock Unit touches only the clock, the reference-change flag and the free-value counter. -/
theorem ClockMove.frame {s t : State} (m : ClockMove s t) : t.lineTable = s.lineTable ∧ t.mix = s.mix ∧ t.cue = s.cue ∧
    t.players = s.players ∧ t.notice = { s.notice with refChange := t.notice.refChange } ∧ t.meter = s.meter ∧
    t.ports = s.ports ∧ t.pending = s.pending := by
  cases m with
  | lock r => simpa using lockReference_notice s r
  | lose r => simpa using loseReference_notice s r
  | missed r => simpa using missed_notice s r
  | arrival r n => simpa using arrival_notice s r n
  | _ => simp

/-! ## Slots under moves of blocks -/

/-- A delivered completion leaves a port's reset line, and makes no slot WORKING. -/
theorem delivered_slot (x : CtrlPort) (r : Result) : (delivered x r).held = x.held ∧ (delivered x r).slot.isWorking = false := by
  unfold delivered
  cases h : x.slot <;> simp [Slot.isWorking, h]

/-- Where the ports of two states stand to each other after completions. -/
def SlotsOnlyEnd (s t : State) : Prop :=
  ∀ q, (t.port q).held = (s.port q).held ∧ ((t.port q).slot.isWorking = true → (s.port q).slot.isWorking = true)

theorem SlotsOnlyEnd.of_ports {s t : State} (h : t.ports = s.ports) : SlotsOnlyEnd s t := fun q => by simp [State.port, h]

theorem SlotsOnlyEnd.trans {s t u : State} (h1 : SlotsOnlyEnd s t) (h2 : SlotsOnlyEnd t u) : SlotsOnlyEnd s u := fun q =>
  ⟨(h2 q).1.trans (h1 q).1, fun h => (h1 q).2 ((h2 q).2 h)⟩

theorem deliver_slotsOnlyEnd (s : State) (p : Port) (r : Result) : SlotsOnlyEnd s (s.deliver p r) := fun q => by
  rw [(State.deliver_spec s p r).1]
  split
  · rename_i e
    subst e
    obtain ⟨h1, h2⟩ := delivered_slot (s.port q) r
    exact ⟨h1, fun h => by simp [h2] at h⟩
  · exact ⟨rfl, id⟩

theorem deliverAll_slotsOnlyEnd (s : State) (who : Port → Bool) (r : Port → Result) :
    SlotsOnlyEnd s (s.deliverAll who r) := by
  have rounds : ∀ (l : List Port) (t : State), SlotsOnlyEnd t (l.foldl (fun s p => if who p then s.deliver p (r p) else s) t) := by
    intro l
    induction l with
    | nil => exact fun t => .of_ports rfl
    | cons p rest ih =>
      intro t
      refine SlotsOnlyEnd.trans ?_ (ih _)
      dsimp only
      split
      · exact deliver_slotsOnlyEnd t p (r p)
      · exact .of_ports rfl
  exact rounds _ s

theorem LineMove.slotsOnlyEnd {s t : State} (m : LineMove s t) : SlotsOnlyEnd s t := by
  cases m with
  | changeOwner l prev new actor _ _ =>
    intro q
    obtain ⟨-, -, -, -, ports, -⟩ := State.changeOwner_spec s l prev new actor
    by_cases told : new = some q ∧ (tget (s.line l).waiters q).isSome = true
    · rw [(ports q).1 told]
      exact ⟨(delivered_slot _ _).1, fun h => by simp [(delivered_slot _ _).2] at h⟩
    · rw [(ports q).2 told]
      exact ⟨rfl, id⟩
  | clearAll =>
    unfold State.clearAll
    exact SlotsOnlyEnd.trans (.of_ports (by simp)) (deliverAll_slotsOnlyEnd _ _ _)
  | endWait l p why _ => exact SlotsOnlyEnd.trans (.of_ports (by simp)) (deliver_slotsOnlyEnd _ _ _)
  | _ => exact .of_ports (by simp)

theorem MeterMove.slotsOnlyEnd {s t : State} (m : MeterMove s t) : SlotsOnlyEnd s t := by
  cases m with
  | unlock => exact .of_ports rfl
  | report o _ => exact .of_ports rfl
  | capture =>
    unfold State.capture
    split
    · exact .of_ports rfl
    · refine SlotsOnlyEnd.trans (t := s.withMeter _) (.of_ports (by simp)) (deliverAll_slotsOnlyEnd _ _ _)
  | abort p r _ =>
    exact SlotsOnlyEnd.trans (t := s.withMeter _) (.of_ports (by simp)) (deliver_slotsOnlyEnd _ _ _)

/-- No move of a block touches a reset line or makes a slot WORKING. -/
theorem BlockMove.slotsOnlyEnd {s t : State} (m : BlockMove s t) : SlotsOnlyEnd s t := by
  cases m with
  | notice w e f x => exact .of_ports rfl
  | line m => exact m.slotsOnlyEnd
  | load m => exact .of_ports m.frame.2.2.2.2.2.2.1
  | player m => exact .of_ports m.frame.2.2.2.2.2.2.1
  | meter m => exact m.slotsOnlyEnd
  | clock m => exact .of_ports m.frame.2.2.2.2.2.2.1
  | stray p code r _ _ _ => exact deliver_slotsOnlyEnd _ _ _
  | tick => exact .of_ports (by simp)

/-- A ready port stays ready under moves of blocks. -/
theorem BlockMoves.ready {s t : State} (m : BlockMoves s t) {p : Port} (h : Ready s p) : Ready t p := by
  refine kept_of_moves (P := fun u => Ready u p) (fun u v m h => ?_) m h
  obtain ⟨held, working⟩ := m.slotsOnlyEnd p
  refine ⟨held.trans h.1, ?_⟩
  cases w : (v.port p).slot.isWorking
  · rfl
  · exact absurd (working w) (by simp [h.2])

/-! ## The end of a task -/

/-- The block completes the task after moves of its own. -/
def Completes (s : State) (e : TaskEnd) : Prop := BlockMoves s e.state ∧ e.result.isSome = true

theorem completes_same (s : State) (r : Result) : Completes s ⟨s, some r⟩ := ⟨.refl, rfl⟩

theorem completes_refuse (s : State) (why : Reason) (d : Nat) : Completes s (s.refuse why d) := ⟨.refl, rfl⟩

theorem completes_moves {s t : State} (m : BlockMoves s t) (r : Result) : Completes s ⟨t, some r⟩ := ⟨m, rfl⟩

theorem completes_move {s t : State} (m : BlockMove s t) (r : Result) : Completes s ⟨t, some r⟩ := ⟨.single m, rfl⟩

/-- A WRITE-TASK whose block completes the task, or waits, is a course of moves (R177 to R180). -/
theorem writeTask_moves (s : State) (p : Port) (code : Byte) (args : List Byte) {ok changing : Bool} {body : State → TaskEnd}
    (h : ∀ u, ok = true → Ready u p → Completes u (body u) ∨
      (body u).result = none ∧ (body u).state.ports = u.ports ∧ Move u ((body u).state.goWorking p code args)) :
    Moves s (s.writeTask p code args ok changing body) := by
  by_cases held : (s.port p).held = true
  · rw [State.writeTask_held held]
  have held : (s.port p).held = false := by simpa using held
  by_cases working : (s.port p).slot.isWorking = true
  · rw [State.writeTask_working held working]
    refine (Relation.ReflTransGen.single (.writeNotTaken s p true held)).tail (.respond _ p [] ?_)
    simp [(State.modPort_spec s p _).1, held]
  have ready : Ready s p := ⟨held, by simpa using working⟩
  have start : Move s (s.taken p) := .writeNotTaken s p false held
  have ready' : Ready (s.taken p) p := by
    simp only [Ready, (State.taken_port s p).1, if_true]
    exact ready
  have served : Completes (s.taken p) ((s.taken p).intake ok changing body) ∨
      ((s.taken p).intake ok changing body).result = none ∧
        ((s.taken p).intake ok changing body).state.ports = (s.taken p).ports ∧
        Move (s.taken p) (((s.taken p).intake ok changing body).state.goWorking p code args) := by
    unfold State.intake
    split
    · exact .inl (completes_refuse _ _ _)
    · split
      · exact .inl (completes_refuse _ _ _)
      · exact h _ (by simp_all) ready'
  have ends : s.writeTask p code args ok changing body =
      (((s.taken p).intake ok changing body).state.settle p code args
        ((s.taken p).intake ok changing body).result).respond p [] :=
    State.writeTask_ready ready code args ok changing body
  rw [ends]
  generalize (s.taken p).intake ok changing body = e at served
  obtain ⟨t, result⟩ := e
  rcases served with ⟨m, done⟩ | ⟨goes, ports, m⟩
  · obtain ⟨r, rfl⟩ := Option.isSome_iff_exists.1 done
    have ready'' := m.ready ready'
    refine (((Relation.ReflTransGen.single start).trans m.moves).tail (.complete t p code args r ready'')).tail
      (.respond _ p [] ?_)
    show ((t.complete p code args r).port p).held = false
    simp [(State.complete_spec t p code args r).1, ready''.1]
  · obtain rfl : result = none := goes
    refine ((Relation.ReflTransGen.single start).tail m).tail (.respond _ p [] ?_)
    show ((t.goWorking p code args).port p).held = false
    rw [(State.goWorking_spec t p code args).1, if_pos rfl]
    have same : t.port p = (s.taken p).port p := by simp [State.port, show t.ports = (s.taken p).ports from ports]
    rw [same]
    exact ready'.1

end Sys2Proof.Proofs.Courses


namespace Sys2Proof.Proofs.Courses

open Sys2Proof Sys2Proof.Machine Sys2Proof.Safety

/-! ## Fields of argument bytes and step records -/

theorem byteAt_le (args : List Byte) (i : Nat) : byteAt args i ≤ 255 := by
  have := (args.getD i 0).isLt
  unfold byteAt
  omega

theorem wordAt_le (args : List Byte) (i : Nat) : wordAt args i ≤ 65535 := by
  have h0 := byteAt_le args i
  have h1 := byteAt_le args (i + 1)
  unfold wordAt
  omega

theorem clampDuck_le (n : Nat) : clampDuck n ≤ 32768 := Nat.min_le_right _ _

/-- The values that a well-formed record carries lie in their ranges (R114). -/
def StepInRange : StepBody → Prop
  | .act a => actionCoefficient a ≤ 65535
  | .talkOn _ _ gain duck => gain ≤ 65535 ∧ duck ≤ 32768
  | .group n => 1 ≤ n ∧ n ≤ 16
  | _ => True

theorem decodeStep_inRange {r : List Byte} {b : StepBody} (h : decodeStep r = some b) : StepInRange b := by
  have w := wordAt_le r
  unfold decodeStep at h
  split at h
  case h_9 => 
    split at h
    · cases h
      assumption
    · cases h
  all_goals
    simp only [Option.bind_eq_bind, Option.bind_eq_some_iff, Option.pure_def, Option.some.injEq, reduceCtorEq] at h
  case h_1 => obtain ⟨c, -, k, -, rfl⟩ := h; exact w 3
  case h_2 => obtain ⟨l, -, rfl⟩ := h; exact w 2
  case h_3 => obtain ⟨l, -, k, -, x, -, rfl⟩ := h; exact Nat.zero_le _
  case h_4 => obtain ⟨l, -, x, -, rfl⟩ := h; exact ⟨w 3, clampDuck_le _⟩
  case h_5 => obtain ⟨l, -, rfl⟩ := h; trivial
  case h_6 => obtain ⟨l, -, v, -, rfl⟩ := h; exact Nat.zero_le _
  case h_7 => subst h; trivial
  case h_8 => obtain ⟨l, -, c, -, m, -, rfl⟩ := h; trivial
  case h_10 => subst h; trivial

/-! ## Tasks of the matrix and the lines -/

theorem taskSetCell_completes (s : State) (p : Port) (args : List Byte) : Completes s (s.taskSetCell p args) := by
  unfold State.taskSetCell
  split
  · rename_i c b _ _
    split
    · exact completes_refuse _ _ _
    · rename_i passes
      exact completes_move (.line (.act s p (.cell c b _) ((State.actionDenied_eq_none s p _).1 passes) (wordAt_le _ _))) _
  · exact completes_refuse _ _ _

theorem taskPark_completes (s : State) (p : Port) (args : List Byte) : Completes s (s.taskPark p args) := by
  unfold State.taskPark
  split
  · exact completes_refuse _ _ _
  · split
    · exact completes_move (.line (.park s _ _ (wordAt_le _ _))) _
    · exact completes_refuse _ _ _

theorem taskPlace_completes (s : State) (p : Port) (args : List Byte) : Completes s (s.taskPlace p args) := by
  unfold State.taskPlace
  split
  · rename_i l bus hold _ _ _
    split
    · exact completes_refuse _ _ _
    · rename_i passes
      exact completes_move
        (.line (.act s p (.place l bus hold) ((State.actionDenied_eq_none s p _).1 passes) (Nat.zero_le _))) _
  · exact completes_refuse _ _ _

theorem taskTrim_completes (s : State) (p : Port) (args : List Byte) : Completes s (s.taskTrim p args) := by
  unfold State.taskTrim
  split
  · rename_i l _
    split
    · exact completes_refuse _ _ _
    · rename_i passes
      exact completes_move (.line (.act s p (.trim l _) ((State.actionDenied_eq_none s p _).1 passes) (wordAt_le _ _))) _
  · exact completes_refuse _ _ _

theorem taskTone_completes (s : State) (p : Port) (args : List Byte) : Completes s (s.taskTone p args) := by
  unfold State.taskTone
  split
  · rename_i l on _ _
    split
    · exact completes_refuse _ _ _
    · rename_i passes
      exact completes_move (.line (.act s p (.tone l on) ((State.actionDenied_eq_none s p _).1 passes) (Nat.zero_le _))) _
  · exact completes_refuse _ _ _

theorem taskAckAttn_completes (s : State) (p : Port) (args : List Byte) : Completes s (s.taskAckAttn p args) := by
  unfold State.taskAckAttn
  split
  · split
    · split
      · exact completes_move (.line (.attention s _)) _
      · exact completes_refuse _ _ _
    · exact completes_move (.line (.attention s _)) _
  · exact completes_refuse _ _ _

theorem taskLineStatus_completes (s : State) (args : List Byte) : Completes s (s.taskLineStatus args) := by
  unfold State.taskLineStatus
  split
  · exact completes_same _ _
  · exact completes_refuse _ _ _

/-! ## Tasks of ownership and talkback -/

/-- A grant of a FREE line (R85, R91). -/
theorem grantFree_moves {s : State} {l : Line} (p : Port) (h : (s.line l).owner = none) : BlockMoves s (s.grantFree l p) :=
  (Relation.ReflTransGen.single (.line (.grant s l p h))).tail (.line (.attention _ l))

theorem taskClaim_ends {s : State} {p : Port} (ready : Ready s p) (args : List Byte) :
    Completes s (s.taskClaim p args) ∨ (s.taskClaim p args).result = none ∧ (s.taskClaim p args).state.ports = s.ports ∧
      Move s ((s.taskClaim p args).state.goWorking p 0x30 args) := by
  unfold State.taskClaim
  split
  · exact .inl (completes_refuse _ _ _)
  · rename_i l _
    split
    · rename_i free
      exact .inl (completes_moves (grantFree_moves p free) _)
    · rename_i q owner
      split
      · exact .inl (completes_same _ _)
      · rename_i other
        split
        · exact .inl (completes_refuse _ _ _)
        · exact .inr ⟨rfl, by simp, .claimWaits s p q l args _ ready owner other⟩

/-- Where a line has no first waiter, no port waits for it (R80). -/
theorem firstWaiter_none {r : LineRec} (h : r.firstWaiter = none) (q : Port) : tget r.waiters q = none := by
  have := List.find?_eq_none.1 h q (List.mem_finRange q)
  simpa using this

theorem lineDenied_none {s : State} {p : Port} {l : Line} (h : s.lineDenied p l = none) : (s.line l).owner = some p := by
  unfold State.lineDenied at h
  split at h
  · assumption
  · cases h

theorem taskRelease_completes (s : State) (p : Port) (args : List Byte) : Completes s (s.taskRelease p args) := by
  unfold State.taskRelease
  split
  · exact completes_refuse _ _ _
  · rename_i l _
    split
    · exact completes_refuse _ _ _
    · rename_i passes
      split
      · rename_i nobody
        exact completes_move (.line (.changeOwner s l p none p (lineDenied_none passes) fun _ => firstWaiter_none nobody)) _
      · rename_i q _
        refine completes_moves (.tail (.single (.line (.changeOwner s l p (some q) p (lineDenied_none passes) ?_)))
          (.line (.attention _ l))) _
        intro h
        cases h

theorem taskHand_completes (s : State) (p : Port) (args : List Byte) : Completes s (s.taskHand p args) := by
  unfold State.taskHand
  split
  · rename_i l q _ _
    split
    · exact completes_refuse _ _ _
    · rename_i passes
      split
      · exact completes_refuse _ _ _
      · refine completes_moves (.tail (.single (.line (.changeOwner s l p (some q) p (lineDenied_none passes) ?_)))
          (raise_move _ _ _ _)) _
        intro h
        cases h
  · exact completes_refuse _ _ _

theorem taskSeize_completes (s : State) (p : Port) (args : List Byte) : Completes s (s.taskSeize p args) := by
  unfold State.taskSeize
  split
  · exact completes_refuse _ _ _
  · split
    · exact completes_refuse _ _ _
    · rename_i l _
      split
      · rename_i free
        exact completes_moves (grantFree_moves 0 free) _
      · rename_i q owner
        split
        · exact completes_same _ _
        · refine completes_moves (.tail (.single (.line (.changeOwner s l q (some 0) 0 owner ?_))) (raise_move _ _ _ _)) _
          intro h
          cases h

theorem taskAssign_completes (s : State) (p : Port) (args : List Byte) : Completes s (s.taskAssign p args) := by
  unfold State.taskAssign
  split
  · exact completes_refuse _ _ _
  · split
    · split
      · exact completes_same _ _
      · exact completes_move (.line (.assignBus s _ _)) _
    · exact completes_refuse _ _ _

theorem taskClearMatrix_completes (s : State) (p : Port) : Completes s (s.taskClearMatrix p) := by
  unfold State.taskClearMatrix
  split
  · exact completes_refuse _ _ _
  · exact completes_move (.line (.clearAll s)) _

theorem taskTalk_completes (s : State) (p : Port) (args : List Byte) : Completes s (s.taskTalk p args) := by
  unfold State.taskTalk
  split
  · rename_i l x _ _
    split
    · exact completes_refuse _ _ _
    · rename_i passes
      exact completes_move (.line (.talkOn s l ⟨p, x, _, _⟩ passes (wordAt_le _ _) (clampDuck_le _))) _
  · exact completes_refuse _ _ _

theorem taskUntalk_completes (s : State) (p : Port) (args : List Byte) : Completes s (s.taskUntalk p args) := by
  unfold State.taskUntalk
  split
  · split
    · exact completes_refuse _ _ _
    · exact completes_move (.line (.clearTalks s _)) _
  · exact completes_refuse _ _ _

/-! ## Tasks of the loaders and the players -/

theorem taskLoadBegin_completes (s : State) (p : Port) (args : List Byte) : Completes s (s.taskLoadBegin p args) := by
  unfold State.taskLoadBegin
  dsimp only
  split
  · exact completes_refuse _ _ _
  · split
    · exact completes_refuse _ _ _
    · split
      · exact completes_refuse _ _ _
      · rename_i some_records room idle
        refine completes_move (.load (.load s p _ _ _ _ some_records (by omega) ?_ ?_ (by simpa using idle))) _
        · unfold chunkTimeoutMs; omega
        · unfold chunkTimeoutMs; omega

theorem taskLoadChunk_completes (s : State) (p : Port) {args : List Byte} (whole : args.length % 8 = 0) :
    Completes s (s.taskLoadChunk p args) := by
  unfold State.taskLoadChunk
  dsimp only
  split
  · exact completes_refuse _ _ _
  · split
    · exact completes_refuse _ _ _
    · rename_i loading room
      exact completes_move (.load (.chunk s p args (by simpa using loading) whole (by omega))) _

theorem taskLoadEnd_completes (s : State) (p : Port) : Completes s (s.taskLoadEnd p) := by
  unfold State.taskLoadEnd
  dsimp only
  split
  · exact completes_refuse _ _ _
  · rename_i loading
    split
    · exact completes_move (.load (.finish s p (by simpa using loading))) _
    · exact completes_move (.load (.stop s p .short)) _

theorem taskRun_completes (s : State) (p : Port) (args : List Byte) : Completes s (s.taskRun p args) := by
  unfold State.taskRun
  dsimp only
  split
  · exact completes_refuse _ _ _
  · split
    · exact completes_refuse _ _ _
    · split
      · exact completes_refuse _ _ _
      · rename_i range idle quiet
        exact completes_move (.player (.run s p _ (by omega) (by simpa using idle) (by simpa using quiet))) _

theorem taskHalt_completes (s : State) (p : Port) : Completes s (s.taskHalt p) := by
  unfold State.taskHalt
  split
  · exact completes_same _ _
  · exact completes_move (.player (.ends s p .halted _ id)) _

/-! ## Tasks of the notices, the meters and the clock -/

theorem taskWatch_completes (s : State) (p : Port) (args : List Byte) : Completes s (s.taskWatch p args) :=
  completes_move (.notice s _ s.notice.events s.notice.refChange s.notice.line) _

theorem taskReadNotices_completes (s : State) (p : Port) : Completes s (s.taskReadNotices p) :=
  completes_move (.notice s s.notice.watch _ s.notice.refChange s.notice.line) _

theorem taskClockStatus_completes (s : State) (p : Port) : Completes s (s.taskClockStatus p) := by
  unfold State.taskClockStatus
  split
  · exact completes_move (.notice s s.notice.watch s.notice.events false s.notice.line) _
  · exact completes_same _ _

theorem taskSnap_ends {s : State} {p : Port} (ready : Ready s p) (args : List Byte) :
    Completes s (s.taskSnap p) ∨ (s.taskSnap p).result = none ∧ (s.taskSnap p).state.ports = s.ports ∧
      Move s ((s.taskSnap p).state.goWorking p 0x68 args) := by
  unfold State.taskSnap
  dsimp only
  split
  · split
    · exact .inr ⟨rfl, rfl, .snapWaits s p args ready⟩
    · exact .inl (completes_refuse _ _ _)
  · exact .inr ⟨rfl, rfl, .snapWaits s p args ready⟩

theorem taskReadSnap_completes (s : State) (p : Port) (args : List Byte) : Completes s (s.taskReadSnap p args) := by
  unfold State.taskReadSnap
  dsimp only
  split
  · exact completes_refuse _ _ _
  · split
    · exact completes_refuse _ _ _
    · split
      · exact completes_refuse _ _ _
      · split
        · exact completes_refuse _ _ _
        · refine completes_moves ?_ _
          split
          · exact .single (.meter (.unlock s))
          · exact .refl

theorem taskRefEnable_completes (s : State) (p : Port) (args : List Byte) : Completes s (s.taskRefEnable p args) := by
  unfold State.taskRefEnable
  split
  · exact completes_refuse _ _ _
  · split
    · rename_i r on _ _
      split
      · exact completes_refuse _ _ _
      · rename_i not_int
        split
        · exact completes_refuse _ _ _
        · rename_i not_selected
          refine completes_moves ?_ _
          split
          · split
            · rename_i off
              exact .single (.clock (.enable s r off))
            · exact .refl
          · rename_i turn_off
            split
            · exact .refl
            · refine .single (.clock (.disable s r ?_ ?_))
              · intro h; simp_all
              · intro h; simp_all
    · exact completes_refuse _ _ _

theorem taskRefSelect_completes (s : State) (p : Port) (args : List Byte) : Completes s (s.taskRefSelect p args) := by
  unfold State.taskRefSelect
  split
  · exact completes_refuse _ _ _
  · split
    · exact completes_refuse _ _ _
    · split
      · exact completes_refuse _ _ _
      · rename_i locked
        split
        · exact completes_same _ _
        · split
          · rename_i runs
            exact completes_move (.clock (.follow s _ (by simpa using locked) runs)) _
          · rename_i stands
            exact completes_move (.clock (.select s _ (by simpa using locked) (by simpa using stands))) _

/-! ## Steps of the Cue Players (R131) -/

/-- A running player that is set to one it may become. -/
theorem setPlayer_walks {s : State} {p : Port} {x : Player} (h : Walks (s.player p) x) : BlockMove s (s.setPlayer p x) := by
  refine .player (.walk s _ fun q => ?_)
  rw [tget_tset]
  split
  · rename_i e
    subst e
    exact .inr h
  · exact .inl rfl

theorem goOn_walks {x : Player} (h1 : x.state ≠ .idle) (h2 : x.state ≠ .pending) : Walks x x.goOn := by
  refine ⟨h1, h2, ?_⟩
  unfold Player.goOn Player.ended
  split
  · simp only [reduceCtorEq, ne_eq, not_false_eq_true, true_and, implies_true, and_true]
    exact fun h _ => ⟨h, h⟩
  · simp
    omega

theorem hold_walks {x : Player} (h1 : x.state ≠ .idle) (h2 : x.state ≠ .pending) {st : PlayerState} (k1 : st ≠ .idle)
    (k2 : st ≠ .pending) (k3 : st ≠ .paused) : Walks x { x with state := st } :=
  ⟨h1, h2, k2, k3, fun h k => ⟨h, k⟩, fun h => absurd h k1⟩

/-- A player that stands at a valid record. -/
abbrev Stands (s : State) (p : Port) : Prop := (s.player p).state = .stepping ∧ s.recordValid p (s.player p).addr = true

theorem stands_of_standsAt {s : State} {p : Port} {k : Nat} (h : s.standsAt p k = true) : Stands s p := by
  simp only [State.standsAt, State.isStepping, Bool.and_eq_true, beq_iff_eq] at h
  exact ⟨h.1.1, h.1.2⟩

/-- The next step of a player whose step is done, where the step could not stand last. -/
theorem stepDone_move {s : State} {p : Port} (h : (s.player p).state = .stepping) (inside : (s.player p).addr ≠ 255) :
    BlockMove s (s.stepDone p) := by
  refine setPlayer_walks ⟨by simp [h], by simp [h], by simp [h], by simp [h], ?_, by simp [h]⟩
  intro h1 h2
  dsimp only
  omega

/-- What a step's command does, where the step is carried out by moves (R131). -/
theorem takeStep_moves (s : State) (p : Port) (kind : Nat) (carry : StepBody → State)
    (h : ∀ b, Stands s p → decodeStep (s.record p (s.player p).addr) = some b →
      ((s.player p).addr = 255 → b.mayStandLast = true) → BlockMoves s (carry b)) :
    ∃ t, s.takeStep p kind carry = .next t ∧ BlockMoves s t := by
  refine ⟨_, rfl, ?_⟩
  split
  · rename_i at_step
    have stands := stands_of_standsAt at_step
    refine BlockMoves.driven ?_
    unfold State.examine
    dsimp only
    split
    · exact .single (.player (.ends s p _ _ id))
    · rename_i b record
      split
      · exact .single (.player (.ends s p _ _ id))
      · rename_i inside
        have last : (s.player p).addr = 255 → b.mayStandLast = true := fun e => by simpa [e] using inside
        split
        · rename_i frozen
          obtain ⟨held, freeze⟩ := Bool.and_eq_true_iff.1 frozen
          refine .single (.player (.pause s p b freeze stands.1 (fun e => ?_) stands.2 record held))
          have := last e
          cases b <;> simp [StepBody.mayStandLast, StepBody.heldByFreeze] at this held
        · exact h b stands record last
  · exact .refl

/-- An action leaves the players and so the player's stepping. -/
theorem stepDone_after {s t : State} {p : Port} (m : BlockMove s t) (players : t.players = s.players)
    (h : (s.player p).state = .stepping) (inside : (s.player p).addr ≠ 255) : BlockMoves s (t.stepDone p) := by
  have same : t.player p = s.player p := by simp [State.player, players]
  exact (Relation.ReflTransGen.single m).tail (stepDone_move (by rw [same]; exact h) (by rw [same]; exact inside))

theorem carryAction_moves {s : State} {p : Port} {b : StepBody} (stands : Stands s p)
    (record : decodeStep (s.record p (s.player p).addr) = some b) (last : (s.player p).addr = 255 → b.mayStandLast = true) :
    BlockMoves s (s.carryAction p b) := by
  unfold State.carryAction
  split
  · rename_i a
    split
    · exact .single (.player (.ends s p _ _ id))
    · rename_i passes
      have inside : (s.player p).addr ≠ 255 := fun e => by simpa [StepBody.mayStandLast] using last e
      exact stepDone_after (.line (.act s p a ((State.actionDenied_eq_none s p a).1 passes) (decodeStep_inRange record)))
        (by simp) stands.1 inside
  · exact .refl

theorem carryTalkOn_moves {s : State} {p : Port} {b : StepBody} (stands : Stands s p)
    (record : decodeStep (s.record p (s.player p).addr) = some b) (last : (s.player p).addr = 255 → b.mayStandLast = true) :
    BlockMoves s (s.carryTalkOn p b) := by
  unfold State.carryTalkOn
  split
  · rename_i l x gain duck
    split
    · exact .single (.player (.ends s p _ _ id))
    · rename_i passes
      have inside : (s.player p).addr ≠ 255 := fun e => by simpa [StepBody.mayStandLast] using last e
      obtain ⟨h1, h2⟩ : gain ≤ 65535 ∧ duck ≤ 32768 := decodeStep_inRange record
      exact stepDone_after (.line (.talkOn s l ⟨p, x, gain, duck⟩ passes h1 h2)) (by simp) stands.1 inside
  · exact .refl

theorem carryTalkOff_moves {s : State} {p : Port} {b : StepBody} (stands : Stands s p)
    (last : (s.player p).addr = 255 → b.mayStandLast = true) : BlockMoves s (s.carryTalkOff p b) := by
  unfold State.carryTalkOff
  split
  · split
    · exact .single (.player (.ends s p _ _ id))
    · have inside : (s.player p).addr ≠ 255 := fun e => by simpa [StepBody.mayStandLast] using last e
      exact stepDone_after (.line (.clearTalks s _)) (by simp) stands.1 inside
  · exact .refl

theorem carryWait_moves {s : State} {p : Port} (b : StepBody) (stands : Stands s p) : BlockMoves s (s.carryWait p b) := by
  unfold State.carryWait
  split
  · exact .single (setPlayer_walks (hold_walks (by simp [stands.1]) (by simp [stands.1]) (by simp) (by simp) (by simp)))
  · exact .refl

theorem carryAwait_moves {s : State} {p : Port} (b : StepBody) (stands : Stands s p) : BlockMoves s (s.carryAwait p b) := by
  unfold State.carryAwait
  split
  · split
    · exact .single (setPlayer_walks (goOn_walks (by simp [stands.1]) (by simp [stands.1])))
    · exact .single (setPlayer_walks (hold_walks (by simp [stands.1]) (by simp [stands.1]) (by simp) (by simp) (by simp)))
  · exact .refl

/-- The actions of a group whose every step passes R137, and where its last step may stand. -/
theorem groupActions_ok {s : State} {p : Port} : ∀ {n a : Nat} {g : List Staged}, s.groupActions p n a = .ok g →
    g.length = n ∧ (∀ x ∈ g, Owns s p x.action ∧ actionCoefficient x.action ≤ 65535) ∧ (a ≤ 255 → a + n ≤ 255) := by
  intro n
  induction n with
  | zero =>
    intro a g h
    cases h
    exact ⟨rfl, by simp, id⟩
  | succ n ih =>
    intro a g h
    rw [State.groupActions] at h
    split at h
    · cases h
    · split at h
      · cases h
      · rename_i x record
        split at h
        · cases h
        · rename_i inside
          split at h
          · cases h
          · rename_i passes
            split at h
            · rename_i rest tail
              cases h
              obtain ⟨h1, h2, h3⟩ := ih tail
              refine ⟨by simp [h1], fun y hy => ?_, fun ha => ?_⟩
              · rcases List.mem_cons.1 hy with rfl | hy
                · exact ⟨(State.actionDenied_eq_none s p x).1 passes, decodeStep_inRange record⟩
                · exact h2 y hy
              · have := h3 (by omega)
                omega
            · cases h
      · cases h

/-- The step at which a group fails lies in the region (R137). -/
theorem groupActions_error {s : State} {p : Port} : ∀ {n a : Nat} {e : PlayerFault × Nat}, s.groupActions p n a = .error e →
    a ≤ 255 → e.2 ≤ 255 := by
  intro n
  induction n with
  | zero =>
    intro a e h
    cases h
  | succ n ih =>
    intro a e h ha
    rw [State.groupActions] at h
    split at h
    · cases h; exact ha
    · split at h
      · cases h; exact ha
      · split at h
        · cases h; exact ha
        · rename_i inside
          split at h
          · cases h; exact ha
          · split at h
            · cases h
            · rename_i tail
              cases h
              exact ih tail (by omega)
      · cases h; exact ha

theorem carryGroup_moves {s : State} {p : Port} {b : StepBody} (stands : Stands s p)
    (record : decodeStep (s.record p (s.player p).addr) = some b) (last : (s.player p).addr = 255 → b.mayStandLast = true) :
    BlockMoves s (s.carryGroup p b) := by
  unfold State.carryGroup
  split
  · rename_i n
    have inside : (s.player p).addr ≠ 255 := fun e => by simpa [StepBody.mayStandLast] using last e
    split
    · rename_i fails
      exact .single (.player (.ends s p _ _ fun h => groupActions_error fails (by omega)))
    · rename_i g passes
      obtain ⟨h1, h2, h3⟩ := groupActions_ok passes
      obtain ⟨r1, r2⟩ : 1 ≤ n ∧ n ≤ 16 := decodeStep_inRange record
      refine .single (.player (.stage s p g stands.1 (by omega) (by omega) (fun h => ?_) h2))
      have := h3 (by omega)
      omega
  · exact .refl

theorem carryEnd_moves (s : State) (p : Port) (b : StepBody) : BlockMoves s (s.carryEnd p b) := by
  unfold State.carryEnd
  split
  · exact .single (.player (.ends s p _ _ id))
  · exact .refl

/-! ## Expiries -/

theorem expireClaimWait_moves (s : State) (l : Line) (p : Port) : BlockMoves s (s.expireClaimWait l p) := by
  unfold State.expireClaimWait
  split
  · rename_i due
    refine .single (.line (.endWait s l p .timeout ?_))
    simp only [State.claimWaitDue, beq_iff_eq] at due
    simp [due]
  · exact .refl

theorem expireChunkTimer_moves (s : State) (p : Port) : BlockMoves s (s.expireChunkTimer p) := by
  unfold State.expireChunkTimer
  split
  · exact .single (.load (.stop s p .timedOut))
  · exact .refl

theorem expireWaitTimer_moves (s : State) (p : Port) : BlockMoves s (s.expireWaitTimer p) := by
  unfold State.expireWaitTimer
  split
  · rename_i due
    have waits : (s.player p).state = .waiting 0 := by simpa [State.waitTimerDue] using due
    exact .single (setPlayer_walks (goOn_walks (by simp [waits]) (by simp [waits])))
  · exact .refl

theorem expireAwaitTimer_moves (s : State) (p : Port) : BlockMoves s (s.expireAwaitTimer p) := by
  unfold State.expireAwaitTimer
  split
  · rename_i awaits
    exact .single (setPlayer_walks ⟨by simp [awaits], by simp [awaits], by simp [Player.ended], by simp [Player.ended],
      fun h _ => ⟨h, h⟩, fun _ => rfl⟩)
  · rename_i awaits
    exact .single (setPlayer_walks (goOn_walks (by simp [awaits]) (by simp [awaits])))
  · exact .refl

theorem expireSnapshot_moves (s : State) : BlockMoves s s.expireSnapshot := by
  unfold State.expireSnapshot
  split
  · exact .single (.meter (.unlock s))
  · exact .refl

theorem expireOverdue_moves (s : State) : BlockMoves s s.expireOverdue :=
  (foldl_moves (fun t p =>
    (((foldl_moves (fun u l => expireClaimWait_moves u l p) _ t).trans (expireChunkTimer_moves _ p)).trans
      (expireWaitTimer_moves _ p)).trans (expireAwaitTimer_moves _ p)) _ s).trans (expireSnapshot_moves _)

/-! ## The Frame Clock Unit's periods and the signalling -/

theorem missMany_moves (n : Nat) (s : State) : BlockMoves s (s.missMany n) := by
  induction n generalizing s with
  | zero => exact .refl
  | succ n ih => exact .head (.clock (.missed s RefId.lnk (by decide))) (ih _)

theorem takeMarkerDue_moves (s : State) : BlockMoves s s.takeMarkerDue := by
  unfold State.takeMarkerDue
  split
  · rename_i taken
    exact .single (.clock (.arrival s _ 0 taken))
  · split
    · exact missMany_moves _ s
    · exact .refl

theorem takeDueSignals_moves (s : State) (l : Line) : BlockMoves s (s.takeDueSignals l) := by
  have connected : BlockMoves s
      (if s.connectedDue l then (if (s.line l).connected then s.takeDisconnect l else s.takeConnect l) else s) := by
    split
    · split
      · exact .single (.line (.disconnect s l))
      · exact .single (.line (.connect s l))
    · exact .refl
  refine connected.trans ?_
  unfold State.takeDueSignals
  dsimp only
  generalize (if s.connectedDue l then (if (s.line l).connected then s.takeDisconnect l else s.takeConnect l) else s) = t
  split
  · split
    · exact .single (.line (.attentionDropped t l))
    · exact .single (.line (.attentionRaised t l))
  · exact .refl

/-- States with one Line Table have the same records. -/
theorem line_congr {s t : State} (h : t.lineTable = s.lineTable) (k : Line) : t.line k = s.line k := by
  rw [State.line, State.line, h]

/-- The lines after a Connect event (R55). -/
theorem takeConnect_line (s : State) (l k : Line) :
    (s.takeConnect l).line k = if k = l then { s.line l with connected := true, connCount := 0 } else s.line k :=
  (line_congr (by simp [State.takeConnect]) k).trans
    ((State.modLine_spec s l fun r => { r with connected := true, connCount := 0 }).1 k)

/-- The lines after a Disconnect event (R56). -/
theorem takeDisconnect_line (s : State) (l k : Line) :
    (s.takeDisconnect l).line k = if k = l then { s.line l with connected := false, connCount := 0 } else s.line k := by
  have table : (s.takeDisconnect l).lineTable =
      (s.modLine l fun r => { r with connected := false, connCount := 0 }).lineTable := by
    unfold State.takeDisconnect
    dsimp only
    split <;> simp
  exact (line_congr table k).trans ((State.modLine_spec s l fun r => { r with connected := false, connCount := 0 }).1 k)

/-- The lines after an Attention raised event (R57). -/
theorem takeAttentionRaised_line (s : State) (l k : Line) :
    (s.takeAttentionRaised l).line k =
      if k = l then { s.line l with attnRaised := true, attnCount := 0, attention := true } else s.line k := by
  have table : (s.takeAttentionRaised l).lineTable =
      ((s.modLine l fun r => { r with attnRaised := true, attnCount := 0 }).setAttention l true).lineTable := by
    unfold State.takeAttentionRaised
    dsimp only
    split <;> simp
  have set := (State.setAttention_spec (s.modLine l fun r => { r with attnRaised := true, attnCount := 0 }) l true).1 k
  refine (line_congr table k).trans (set.trans ?_)
  simp only [(State.modLine_spec s l _).1, if_true]
  split <;> rfl

/-- The lines after an Attention dropped event (R58). -/
theorem takeAttentionDropped_line (s : State) (l k : Line) :
    (s.takeAttentionDropped l).line k =
      if k = l then { s.line l with attnRaised := false, attnCount := 0 } else s.line k := by
  rw [State.takeAttentionDropped, (State.modLine_spec s l _).1]

/-- The counts of a line are below the debounce (R52, R53). -/
def CountsBelow (s : State) (l : Line) : Prop := (s.line l).connCount < 384 ∧ (s.line l).attnCount < 384

/-- After a line's due changes none of its changes is due, and the other lines are as before. -/
theorem takeDueSignals_counts (s : State) (l : Line) :
    CountsBelow (s.takeDueSignals l) l ∧ ∀ k, k ≠ l → (s.takeDueSignals l).line k = s.line k := by
  unfold State.takeDueSignals
  dsimp only
  generalize ht : (if s.connectedDue l then (if (s.line l).connected then s.takeDisconnect l else s.takeConnect l) else s) = t
  have first : (t.line l).connCount < 384 ∧ ∀ k, k ≠ l → t.line k = s.line k := by
    subst ht
    split
    · split
      · simp +contextual [takeDisconnect_line]
      · simp +contextual [takeConnect_line]
    · rename_i not_due
      simpa [State.connectedDue] using not_due
  obtain ⟨below, others⟩ := first
  split
  · split
    · refine ⟨?_, fun k hk => by simp [takeAttentionDropped_line, hk, others k hk]⟩
      simpa [CountsBelow, takeAttentionDropped_line] using below
    · refine ⟨?_, fun k hk => by simp [takeAttentionRaised_line, hk, others k hk]⟩
      simpa [CountsBelow, takeAttentionRaised_line] using below
  · rename_i not_due
    exact ⟨⟨below, by simpa [State.attentionDue] using not_due⟩, others⟩

/-- After the due changes of some lines none of theirs is due. -/
theorem foldl_takeDueSignals_counts (ls : List Line) (s : State) :
    (∀ l, l ∈ ls ∨ CountsBelow s l → CountsBelow (ls.foldl State.takeDueSignals s) l) := by
  induction ls generalizing s with
  | nil => simp
  | cons k rest ih =>
    intro l h
    refine ih _ l ?_
    by_cases e : l = k
    · subst e
      exact .inr (takeDueSignals_counts s l).1
    · rcases h with h | h
      · exact .inl ((List.mem_cons.1 h).resolve_left e)
      · exact .inr (by rw [CountsBelow, (takeDueSignals_counts s k).2 l e]; exact h)

theorem signallingWord_moves (s : State) (rx : LineFrame) :
    BlockMoves s
      (let t := (((List.finRange 24).foldl State.takeDueSignals s).takeMarkerDue).stepDebounce rx
      (t.withClock (t.clock.timeMarker (frameMarker rx))).driveNotices) := by
  have due : BlockMoves s ((List.finRange 24).foldl State.takeDueSignals s) := foldl_moves takeDueSignals_moves _ s
  have below : ∀ l, CountsBelow ((List.finRange 24).foldl State.takeDueSignals s) l := fun l =>
    foldl_takeDueSignals_counts _ s l (.inl (List.mem_finRange l))
  refine BlockMoves.driven (((due.trans (takeMarkerDue_moves _)).tail (.line (.debounce _ rx fun l => ?_))).tail
    (.clock (.marker _ _)))
  have := below l
  simpa [CountsBelow, State.line] using this

/-! ## The frame event (R9) -/

/-- Every output lies in the sample range (R26). -/
theorem outputs_range (s : State) (rx : InputFrame) (i : MeterId) :
    -8388608 ≤ (tget (s.outputs rx) i).1 ∧ (tget (s.outputs rx) i).1 ≤ 8388607 := by
  unfold State.outputs
  dsimp only
  rw [tget_tmake]
  split
  · unfold State.lineReturn
    split
    · simp
    · split
      · unfold toneSample
        split <;> simp
      · exact sat_range _
  · exact sat_range _

theorem frameParts_moves (s : State) (rx : InputFrame) : FrameMoves s (s.frameParts rx) := by
  have groups : FrameMoves s s.applyGroups :=
    (BlockMoves.moves (foldl_moves (fun t p => .single (.line (.applyPending t p))) _ s)).frameMoves
  refine groups.trans (.head (.ramps _) (.head (.transmit _ _ fun i => ?_) (.head (.other (.block (.meter (.report _ _ fun i => ?_))))
    (.head (.other (.block (.meter (.capture _)))) (.single (.phase _))))))
  · rw [tget_tmake]
    exact outputs_range _ rx i
  · have := outputs_range (s.applyGroups.withMix s.applyGroups.mix.stepRamps) rx i
    omega

theorem frameEvent_moves (s : State) (rx : InputFrame) :
    FrameMoves s ((s.expireOverdue.tickTimers).frameParts rx).driveNotices := by
  have timers : FrameMoves s s.expireOverdue.tickTimers :=
    (BlockMoves.moves ((expireOverdue_moves s).tail (.tick _))).frameMoves
  exact (timers.trans (frameParts_moves _ rx)).tail (.other (.block (driveNotices_move _)))

/-! ## The course of every command -/

/-- The part after power-on reset: pins, queue and free-value counter as they stood (R185, log 1, log 2, log 6). -/
def poweredOn (s : State) : State :=
  ((State.reset.withPorts
    { port := tmake fun p => { CtrlPort.reset with held := (s.port p).held }
      freeze := s.ports.freeze }).withFree s.free).withPending s.pending

/-- How each command comes from a state to the next: by moves, by a frame event's, by FREEZE's own or by power-on reset. -/
inductive Course (s : State) : Instr → State → Prop where
  | moves {c : Instr} {t : State} : Moves s t → Course s c t
  | frame (rx : InputFrame) {t : State} : FrameMoves s t → Course s (.frameEvent rx) t
  | freeze : Course s .freezeAsserted (s.setFreeze true)
  | thaw : s.pending.head? = some .freezeAsserted → Course s .freezeReleased (s.setFreeze false)
  | told : Course s .freezeReleased (s.setFreeze false).tellPaused
  | powerOn : Course s .powerOnReset (poweredOn s)

theorem Course.same (s : State) (c : Instr) : Course s c s := .moves .refl

theorem Course.block {s t : State} (c : Instr) (m : BlockMoves s t) : Course s c t := .moves m.moves

/-- A command that acts only where its condition holds. -/
theorem Course.ite {s t : State} {c : Instr} (p : Bool) (m : p = true → BlockMoves s t) :
    Course s c (if p then t else s) := by
  split
  · rename_i h
    exact .block c (m h)
  · exact .same s c

theorem abort_course (s : State) (p : Port) :
    Course s (.abort p) (if (s.port p).held then s
      else
        match (s.port p).slot with
        | .working code _ => (s.abortTask p code).respond p [1]
        | _ => s.respond p [0]) := by
  split
  · exact .same s _
  · rename_i held
    have held : (s.port p).held = false := by simpa using held
    split
    · rename_i code args slot
      have code_of : workingCode (s.port p).slot = some code := by rw [slot]; rfl
      have ends : BlockMoves s (s.abortTask p code) := by
        unfold State.abortTask
        split
        · rename_i snap
          exact .single (.meter (.abort s p _ (by rw [code_of, snap])))
        · rename_i not_snap
          split
          · rename_i l waits
            unfold State.waitLine at waits
            have waiter := List.find?_some waits
            exact .single (.line (.endWait s l p .aborted (by simpa using waiter)))
          · rename_i nowhere
            refine .single (.stray s p code _ code_of not_snap fun l => ?_)
            simpa using List.find?_eq_none.1 nowhere l (List.mem_finRange l)
      have held' : ((s.abortTask p code).port p).held = false := by
        have keeps : SlotsOnlyEnd s (s.abortTask p code) :=
          kept_of_moves (P := SlotsOnlyEnd s) (fun _ _ m h => h.trans m.slotsOnlyEnd) ends (.of_ports rfl)
        rw [(keeps p).1, held]
      exact .moves (ends.moves.tail (.respond _ p [1] held'))
    · exact .moves (.single (.respond s p [0] held))

/-- How a task that its block took stands: completed, or waiting with its slot WORKING (R178, R180). -/
def TaskEnds (s : State) (p : Port) (code : Byte) (args : List Byte) (e : TaskEnd) : Prop :=
  Completes s e ∨ e.result = none ∧ e.state.ports = s.ports ∧ Move s (e.state.goWorking p code args)

/-- Every row of R186 is a WRITE-TASK whose block completes the task or makes it wait. -/
theorem task_ends {c : Instr} {row : TaskRow} (h : taskRow c = some row) :
    ∃ body : State → TaskEnd,
      (∀ s, exec c s = .next (s.writeTask row.port row.code row.args row.lengthOk row.changing body)) ∧
      ∀ u, row.lengthOk = true → Ready u row.port → TaskEnds u row.port row.code row.args (body u) := by
  cases c with
  | setCell p args =>
    cases h
    exact ⟨_, fun _ => rfl, fun u _ _ => .inl (taskSetCell_completes u p args)⟩
  | park p args =>
    cases h
    exact ⟨_, fun _ => rfl, fun u _ _ => .inl (taskPark_completes u p args)⟩
  | place p args =>
    cases h
    exact ⟨_, fun _ => rfl, fun u _ _ => .inl (taskPlace_completes u p args)⟩
  | trim p args =>
    cases h
    exact ⟨_, fun _ => rfl, fun u _ _ => .inl (taskTrim_completes u p args)⟩
  | tone p args =>
    cases h
    exact ⟨_, fun _ => rfl, fun u _ _ => .inl (taskTone_completes u p args)⟩
  | ackAttn p args =>
    cases h
    exact ⟨_, fun _ => rfl, fun u _ _ => .inl (taskAckAttn_completes u p args)⟩
  | lineStatus p args =>
    cases h
    exact ⟨_, fun _ => rfl, fun u _ _ => .inl (taskLineStatus_completes u args)⟩
  | claim p args =>
    cases h
    exact ⟨_, fun _ => rfl, fun _ _ ready => taskClaim_ends ready args⟩
  | release p args =>
    cases h
    exact ⟨_, fun _ => rfl, fun u _ _ => .inl (taskRelease_completes u p args)⟩
  | hand p args =>
    cases h
    exact ⟨_, fun _ => rfl, fun u _ _ => .inl (taskHand_completes u p args)⟩
  | seize p args =>
    cases h
    exact ⟨_, fun _ => rfl, fun u _ _ => .inl (taskSeize_completes u p args)⟩
  | assign p args =>
    cases h
    exact ⟨_, fun _ => rfl, fun u _ _ => .inl (taskAssign_completes u p args)⟩
  | clearMatrix p args =>
    cases h
    exact ⟨_, fun _ => rfl, fun u _ _ => .inl (taskClearMatrix_completes u p)⟩
  | talk p args =>
    cases h
    exact ⟨_, fun _ => rfl, fun u _ _ => .inl (taskTalk_completes u p args)⟩
  | untalk p args =>
    cases h
    exact ⟨_, fun _ => rfl, fun u _ _ => .inl (taskUntalk_completes u p args)⟩
  | loadBegin p args =>
    cases h
    exact ⟨_, fun _ => rfl, fun u _ _ => .inl (taskLoadBegin_completes u p args)⟩
  | loadChunk p args =>
    cases h
    refine ⟨_, fun _ => rfl, fun u ok _ => .inl (taskLoadChunk_completes u p ?_)⟩
    simp only [Bool.and_eq_true, beq_iff_eq] at ok
    exact ok.2
  | loadEnd p args =>
    cases h
    exact ⟨_, fun _ => rfl, fun u _ _ => .inl (taskLoadEnd_completes u p)⟩
  | run p args =>
    cases h
    exact ⟨_, fun _ => rfl, fun u _ _ => .inl (taskRun_completes u p args)⟩
  | halt p args =>
    cases h
    exact ⟨_, fun _ => rfl, fun u _ _ => .inl (taskHalt_completes u p)⟩
  | seqStatus p args =>
    cases h
    exact ⟨_, fun _ => rfl, fun u _ _ => .inl (completes_same u _)⟩
  | watch p args =>
    cases h
    exact ⟨_, fun _ => rfl, fun u _ _ => .inl (taskWatch_completes u p args)⟩
  | readNotices p args =>
    cases h
    exact ⟨_, fun _ => rfl, fun u _ _ => .inl (taskReadNotices_completes u p)⟩
  | snap p args =>
    cases h
    exact ⟨_, fun _ => rfl, fun _ _ ready => taskSnap_ends ready args⟩
  | readSnap p args =>
    cases h
    exact ⟨_, fun _ => rfl, fun u _ _ => .inl (taskReadSnap_completes u p args)⟩
  | refEnable p args =>
    cases h
    exact ⟨_, fun _ => rfl, fun u _ _ => .inl (taskRefEnable_completes u p args)⟩
  | refSelect p args =>
    cases h
    exact ⟨_, fun _ => rfl, fun u _ _ => .inl (taskRefSelect_completes u p args)⟩
  | clockStatus p args =>
    cases h
    exact ⟨_, fun _ => rfl, fun u _ _ => .inl (taskClockStatus_completes u p)⟩
  | _ => cases h

/-- Every command that is no task of R186 answers a next state, and takes its course to it. -/
theorem exec_course_of_no_task {c : Instr} (task : taskRow c = none) (s : State) : ∃ t, exec c s = .next t ∧ Course s c t := by
  cases c with
  | unknownTask p code args => exact ⟨_, rfl, .moves (writeTask_moves s p code args fun u _ _ => .inl (completes_refuse u _ _))⟩
  | readResult p =>
    refine ⟨_, rfl, ?_⟩
    split
    · exact .same s _
    · rename_i held
      refine .moves (.tail (.single (.markRead s p)) (.respond _ p _ ?_))
      simpa [State.markRead, State.port, State.modPort] using held
  | readStatus p cmd =>
    refine ⟨_, rfl, ?_⟩
    split
    · exact .same s _
    · rename_i held
      exact .moves (.single (.respond s p [] (by simpa using held)))
  | abort p => exact ⟨_, rfl, abort_course s p⟩
  | stepSetCell p =>
    obtain ⟨t, h, m⟩ := takeStep_moves s p 0x01 _ fun b stands record last => carryAction_moves stands record last
    exact ⟨t, h, .block _ m⟩
  | stepSetTrim p =>
    obtain ⟨t, h, m⟩ := takeStep_moves s p 0x02 _ fun b stands record last => carryAction_moves stands record last
    exact ⟨t, h, .block _ m⟩
  | stepPlace p =>
    obtain ⟨t, h, m⟩ := takeStep_moves s p 0x03 _ fun b stands record last => carryAction_moves stands record last
    exact ⟨t, h, .block _ m⟩
  | stepTone p =>
    obtain ⟨t, h, m⟩ := takeStep_moves s p 0x06 _ fun b stands record last => carryAction_moves stands record last
    exact ⟨t, h, .block _ m⟩
  | stepTalkOn p =>
    obtain ⟨t, h, m⟩ := takeStep_moves s p 0x04 _ fun b stands record last => carryTalkOn_moves stands record last
    exact ⟨t, h, .block _ m⟩
  | stepTalkOff p =>
    obtain ⟨t, h, m⟩ := takeStep_moves s p 0x05 _ fun b stands _ last => carryTalkOff_moves stands last
    exact ⟨t, h, .block _ m⟩
  | stepWait p =>
    obtain ⟨t, h, m⟩ := takeStep_moves s p 0x07 _ fun b stands _ _ => carryWait_moves b stands
    exact ⟨t, h, .block _ m⟩
  | stepAwait p =>
    obtain ⟨t, h, m⟩ := takeStep_moves s p 0x08 _ fun b stands _ _ => carryAwait_moves b stands
    exact ⟨t, h, .block _ m⟩
  | stepGroup p =>
    obtain ⟨t, h, m⟩ := takeStep_moves s p 0x09 _ fun b stands record last => carryGroup_moves stands record last
    exact ⟨t, h, .block _ m⟩
  | stepEnd p =>
    obtain ⟨t, h, m⟩ := takeStep_moves s p 0x0A _ fun b _ _ _ => carryEnd_moves s p b
    exact ⟨t, h, .block _ m⟩
  | examineInvalidStep p => exact ⟨_, rfl, .ite _ fun _ => .single (.player (.ends s p _ _ id))⟩
  | powerOnReset => exact ⟨_, rfl, .powerOn⟩
  | portReset p =>
    refine ⟨_, rfl, ?_⟩
    split
    · exact .same s _
    · exact .moves (.tail (.single (.reset s p)) (.block (driveNotices_move (portCleared s p))))
  | portResetRelease p => exact ⟨_, rfl, .moves (.single (.release s p))⟩
  | freezeAsserted => exact ⟨_, rfl, .freeze⟩
  | freezeReleased =>
    refine ⟨_, rfl, ?_⟩
    split
    · rename_i asserted
      exact .thaw asserted
    · exact .told
  | frameEvent rx =>
    refine ⟨_, rfl, ?_⟩
    split
    · exact .frame rx (frameEvent_moves s rx)
    · exact .same s _
  | signallingWord rx => exact ⟨_, rfl, .ite _ fun _ => signallingWord_moves s rx⟩
  | connect l => exact ⟨_, rfl, .ite _ fun _ => BlockMoves.driven (.single (.line (.connect s l)))⟩
  | disconnect l => exact ⟨_, rfl, .ite _ fun _ => BlockMoves.driven (.single (.line (.disconnect s l)))⟩
  | attentionRaised l => exact ⟨_, rfl, .ite _ fun _ => BlockMoves.driven (.single (.line (.attentionRaised s l)))⟩
  | attentionDropped l => exact ⟨_, rfl, .ite _ fun _ => BlockMoves.driven (.single (.line (.attentionDropped s l)))⟩
  | claimWaitExpiry l p => exact ⟨_, rfl, .ite _ fun _ => BlockMoves.driven (expireClaimWait_moves s l p)⟩
  | chunkTimerExpiry p => exact ⟨_, rfl, .block _ (expireChunkTimer_moves s p)⟩
  | waitTimerExpiry p => exact ⟨_, rfl, .block _ (expireWaitTimer_moves s p)⟩
  | awaitTimeout p => exact ⟨_, rfl, .block _ (expireAwaitTimer_moves s p)⟩
  | snapshotExpiry => exact ⟨_, rfl, .block _ (expireSnapshot_moves s)⟩
  | referencePeriod r n => exact ⟨_, rfl, .ite _ fun taken => BlockMoves.driven (.single (.clock (.arrival s r n taken)))⟩
  | missingPeriod r =>
    refine ⟨_, rfl, .ite _ fun taken => BlockMoves.driven (.single (.clock (.missed s r ?_)))⟩
    simp only [State.missingTaken, Bool.and_eq_true, bne_iff_ne] at taken
    exact taken.1.2
  | referenceLock r => exact ⟨_, rfl, .ite _ fun due => BlockMoves.driven (.single (.clock (.lock s r due)))⟩
  | referenceLoss r => exact ⟨_, rfl, .ite _ fun due => BlockMoves.driven (.single (.clock (.lose s r due)))⟩
  | examineMalformedStep p => exact ⟨_, rfl, .ite _ fun _ => .single (.player (.ends s p _ _ id))⟩
  | _ => cases task

/-- Every command answers a next state, and takes its course to it. -/
theorem exec_course (c : Instr) (s : State) : ∃ t, exec c s = .next t ∧ Course s c t := by
  cases task : taskRow c with
  | some row =>
    obtain ⟨body, run, ends⟩ := task_ends task
    exact ⟨_, run s, .moves (writeTask_moves s row.port row.code row.args ends)⟩
  | none => exact exec_course_of_no_task task s

/-- A next state is reached by the command's course. -/
theorem course_of_exec {c : Instr} {s t : State} (h : exec c s = .next t) : Course s c t := by
  obtain ⟨u, hu, course⟩ := exec_course c s
  obtain rfl : u = t := by simpa [hu] using h
  exact course

/-- A law that every move of a frame event keeps, that does not read FREEZE, the PAUSED players or the queue, and that holds
after power-on reset, is kept by every step. -/
theorem step_keeps {P : State → Prop} (queue : ∀ s x, P s → P (s.withPending x)) (move : ∀ s t, FrameMove s t → P s → P t)
    (freeze : ∀ s v, P s → P (s.setFreeze v)) (told : ∀ s, P s → P s.tellPaused) (reset : ∀ s, P s → P (poweredOn s))
    {s t : State} (h : step s = .next t) (hs : P s) : P t := by
  unfold step at h
  split at h
  · cases h
    exact hs
  · rename_i c rest _
    have start := queue s rest hs
    cases course_of_exec h with
    | moves m => exact kept_of_moves move m.frameMoves start
    | frame rx m => exact kept_of_moves move m start
    | freeze => exact freeze _ true start
    | thaw _ => exact freeze _ false start
    | told => exact told _ (freeze _ false start)
    | powerOn => exact reset _ start

end Sys2Proof.Proofs.Courses


namespace Sys2Proof.Proofs.Effects

open Sys2Proof Sys2Proof.Machine Sys2Proof.Safety Sys2Proof.Proofs.Courses

/-! ## Reading a block that two states share -/

theorem port_congr {s t : State} (h : t.ports = s.ports) (q : Port) : t.port q = s.port q := by
  rw [State.port, State.port, h]

theorem player_congr {s t : State} (h : t.players = s.players) (q : Port) : t.player q = s.player q := by
  rw [State.player, State.player, h]

theorem loader_congr {s t : State} (h : t.cue = s.cue) (q : Port) : t.loader q = s.loader q := by
  rw [State.loader, State.loader, h]

theorem ref_congr {s t : State} (h : t.clock = s.clock) (r : RefId) : t.ref r = s.ref r := by
  rw [State.ref, State.ref, h]

theorem busOwner_congr {s t : State} (h : t.lineTable.busOwner = s.lineTable.busOwner) (b : Bus) :
    t.busOwner b = s.busOwner b := by rw [State.busOwner, State.busOwner, h]

theorem groupNames_congr {s t : State} (h : t.mix.staging = s.mix.staging) (named : Action → Bool) (q : Port) :
    t.groupNames named q = s.groupNames named q := by rw [State.groupNames, State.groupNames, h]

/-! ## Completions to several ports -/

/-- Completions delivered to the selected ports of a list that names no port twice (R178, R180). -/
theorem foldl_deliver_spec (who : Port → Bool) (r : Port → Result) (l : List Port) (once : l.Nodup) (s : State) :
    let t := l.foldl (fun s p => if who p then s.deliver p (r p) else s) s
    (∀ q, t.port q = if q ∈ l ∧ who q = true then delivered (s.port q) (r q) else s.port q) ∧
    (∀ q, tget t.notice.unreadView q =
      if (q ∈ l ∧ who q = true) ∧ (s.port q).slot.isWorking = true then true else tget s.notice.unreadView q) ∧
    t.notice = { s.notice with unreadView := t.notice.unreadView } := by
  induction l generalizing s with
  | nil => simp
  | cons p rest ih =>
    obtain ⟨fresh, once⟩ := List.nodup_cons.1 once
    rw [List.foldl_cons]
    obtain ⟨h1, h2, h3⟩ := ih once (if who p then s.deliver p (r p) else s)
    by_cases hp : who p = true
    · simp only [hp, if_true] at h1 h2 h3 ⊢
      obtain ⟨d1, -, d3, d4⟩ := State.deliver_spec s p (r p)
      refine ⟨fun q => ?_, fun q => ?_, by rw [h3, d4]⟩
      · rw [h1, d1]
        by_cases e : q = p
        · subst e
          simp [fresh, hp]
        · simp [e]
      · rw [h2, d1, d3]
        by_cases e : q = p
        · subst e
          simp [fresh, hp]
        · simp [e]
    · simp only [hp] at h1 h2 h3 ⊢
      refine ⟨fun q => ?_, fun q => ?_, h3⟩
      · rw [h1]
        by_cases e : q = p
        · subst e
          simp [fresh, hp]
        · simp [e]
      · rw [h2]
        by_cases e : q = p
        · subst e
          simp [fresh, hp]
        · simp [e]

/-- Completions delivered to every selected port (R178, R180). -/
theorem deliverAll_spec (s : State) (who : Port → Bool) (r : Port → Result) :
    (∀ q, (s.deliverAll who r).port q = if who q = true then delivered (s.port q) (r q) else s.port q) ∧
    (∀ q, tget (s.deliverAll who r).notice.unreadView q =
      if who q = true ∧ (s.port q).slot.isWorking = true then true else tget s.notice.unreadView q) ∧
    (s.deliverAll who r).notice = { s.notice with unreadView := (s.deliverAll who r).notice.unreadView } := by
  obtain ⟨h1, h2, h3⟩ := foldl_deliver_spec who r (List.finRange 4) (List.nodup_finRange 4) s
  exact ⟨fun q => (h1 q).trans (by simp), fun q => (h2 q).trans (by simp), h3⟩

/-! ## Actions -/

/-- What an action makes of the record of line `k` (R63, R67). -/
def actionOnLine (k : Line) (r : LineRec) : Action → LineRec
  | .place l bus hold => if k = l then r.placedOn bus hold else r
  | .tone l on => if k = l then { r with tone := on } else r
  | _ => r

/-- What an action makes of the bank (R42, R65). -/
def actionOnMix (m : MixEngine) : Action → MixEngine
  | .cell c b v => m.writeCells (fun c' b' => c' == c && b' == b) v
  | .trim l v => m.writeStoredTrim l v
  | _ => m

theorem performAction_line (s : State) (a : Action) (k : Line) : (s.performAction a).line k = actionOnLine k (s.line k) a := by
  cases a with
  | cell c b v => rfl
  | trim l v => rfl
  | place l bus hold =>
    refine ((State.modLine_spec s l fun r => r.placedOn bus hold).1 k).trans ?_
    unfold actionOnLine
    split <;> simp_all
  | tone l on =>
    refine ((State.modLine_spec s l fun r => { r with tone := on }).1 k).trans ?_
    unfold actionOnLine
    split <;> simp_all

theorem performAction_mix (s : State) (a : Action) : (s.performAction a).mix = actionOnMix s.mix a := by
  cases a <;> simp [State.performAction, actionOnMix]

theorem performAction_busOwner (s : State) (a : Action) : (s.performAction a).lineTable.busOwner = s.lineTable.busOwner := by
  cases a <;> simp [State.performAction, State.modLine]

/-- The lines after a group's actions: each action in step order (R38). -/
theorem applyGroup_line (g : List Staged) (s : State) (k : Line) :
    (s.applyGroup g).line k = g.foldl (fun r a => actionOnLine k r a.action) (s.line k) := by
  induction g generalizing s with
  | nil => rfl
  | cons a rest ih =>
    rw [List.foldl_cons, ← performAction_line]
    exact ih _

/-- The bank after a group's actions: each action in step order (R38). -/
theorem applyGroup_mix (g : List Staged) (s : State) :
    (s.applyGroup g).mix = g.foldl (fun m a => actionOnMix m a.action) s.mix := by
  induction g generalizing s with
  | nil => rfl
  | cons a rest ih =>
    rw [List.foldl_cons, ← performAction_mix]
    exact ih _

theorem applyGroup_busOwner (g : List Staged) (s : State) : (s.applyGroup g).lineTable.busOwner = s.lineTable.busOwner :=
  foldl_keeps (fun t (a : Staged) => t.performAction a.action) (fun t => t.lineTable.busOwner)
    (fun t a => performAction_busOwner t a.action) g s

/-- Actions leave the staging list. -/
theorem actionOnMix_staging (m : MixEngine) (a : Action) : (actionOnMix m a).staging = m.staging := by cases a <;> rfl

/-- A group's actions leave the staging list. -/
theorem foldl_actionOnMix_staging (g : List Staged) (m : MixEngine) :
    (g.foldl (fun m a => actionOnMix m a.action) m).staging = m.staging := by
  induction g generalizing m with
  | nil => rfl
  | cons a rest ih => rw [List.foldl_cons, ih, actionOnMix_staging]

/-- The application of a pending group: its actions, its removal, and the player after it (R38, R138). -/
theorem applyPending_spec (s : State) (p : Port) :
    match tget s.mix.staging p with
    | none => s.applyPending p = s
    | some g =>
      (∀ k, (s.applyPending p).line k = g.foldl (fun r a => actionOnLine k r a.action) (s.line k)) ∧
      (s.applyPending p).lineTable.busOwner = s.lineTable.busOwner ∧
      (s.applyPending p).mix =
        { g.foldl (fun m a => actionOnMix m a.action) s.mix with staging := tset s.mix.staging p none } ∧
      ∀ q, (s.applyPending p).player q =
        if q = p then { s.player p with state := .stepping, addr := (s.player p).addr + g.length + 1 } else s.player q := by
  cases h : tget s.mix.staging p with
  | none => simp [State.applyPending, h]
  | some g =>
    have ht : s.applyPending p = ((s.applyGroup g).withMix { (s.applyGroup g).mix with
        staging := tset (s.applyGroup g).mix.staging p none }).setPlayer p
        { s.player p with state := .stepping, addr := (s.player p).addr + g.length + 1 } := by
      simp [State.applyPending, h, State.player]
    dsimp only
    rw [ht]
    refine ⟨fun k => ?_, ?_, ?_, fun q => ?_⟩
    · rw [← applyGroup_line]
      exact line_congr (by simp) k
    · simp [applyGroup_busOwner]
    · have staging := foldl_actionOnMix_staging g s.mix
      simp [applyGroup_mix, staging]
    · rw [State.setPlayer_spec]
      split
      · rfl
      · exact player_congr (by simp) q

/-! ## Talk slots of several lines -/

/-- The talk slots of the selected lines cleared, with the writes of R100. -/
theorem clearTalks_spec (s : State) (sel : Line → Bool) :
    (∀ k, (s.clearTalks sel).line k = { s.line k with talk := if sel k then none else (s.line k).talk }) ∧
    (s.clearTalks sel).lineTable.busOwner = s.lineTable.busOwner ∧ (s.clearTalks sel).mix = s.mix.talkCleared sel := by
  refine ⟨fun k => ?_, by simp [State.clearTalks, State.mapLines], by simp [State.clearTalks]⟩
  refine (line_congr (t := s.clearTalks sel) (by simp [State.clearTalks]) k).trans
    (((State.mapLines_spec s fun l r => if sel l then { r with talk := none } else r).1 k).trans ?_)
  split <;> simp_all

/-- The line of a talk slot that is taken, updated or passed on (R101). -/
theorem talkOn_line (s : State) (l : Line) (x : TalkSlot) (k : Line) :
    (s.talkOn l x).line k = if k = l then { s.line l with talk := some x } else s.line k := by
  have same : ∀ j, (s.raiseTalkEnded l x.talker).line j = s.line j := line_congr (by simp)
  obtain ⟨⟨-, others⟩, self, -⟩ := State.setTalk_spec (s.raiseTalkEnded l x.talker) l x
  unfold State.talkOn
  split
  · rename_i e
    rw [e, self, same]
  · rename_i e
    rw [others k e, same]

theorem talkOn_busOwner (s : State) (l : Line) (x : TalkSlot) : (s.talkOn l x).lineTable.busOwner = s.lineTable.busOwner := by
  simp [State.talkOn, State.setTalk, State.modLine]

theorem talkOn_mix (s : State) (l : Line) (x : TalkSlot) : (s.talkOn l x).mix = s.mix.talkTaken l x := by
  simp [State.talkOn, State.setTalk]

/-! ## ASSIGN and CLEAR-MATRIX -/

/-- A discard request in a state with the players and groups of another. -/
theorem discard_lost {s u : State} {named : Action → Bool} (staging : u.mix.staging = s.mix.staging)
    (players : u.players = s.players) : GroupsLost s (u.discard named) named := fun q => by
  have lost := (State.discard_spec u named).1 q
  rwa [groupNames_congr staging, player_congr players, staging] at lost

/-- A bus passes to a new owner: the table, the lines on it, its cells and the groups that name it (R93). -/
theorem assignBus_spec (s : State) (b : Bus) (q : Port) :
    (∀ k, (s.assignBus b q).busOwner k = if k = b then q else s.busOwner k) ∧
    (∀ l, (s.assignBus b q).line l =
      if (s.line l).status = .placed ∧ (s.line l).bus = some b ∧ (s.line l).owner ≠ some q then
        { s.line l with status := .held, bus := none }
      else s.line l) ∧
    (s.assignBus b q).mix =
      { s.mix with cells := (s.assignBus b q).mix.cells, staging := (s.assignBus b q).mix.staging } ∧
    (∀ c k, tget (tget (s.assignBus b q).mix.cells c) k =
      if k = b ∧ (Contributor.line? c).any (fun l => (s.line l).owner != some q) = true then
        aimed (tget (tget s.mix.cells c) k) 0 else tget (tget s.mix.cells c) k) ∧
    GroupsLost s (s.assignBus b q) (Action.namesBus b) := by
  have lines := (State.mapLines_spec s fun l r => if r.status = .placed ∧ r.bus = some b ∧ !((s.line l).owner == some q) then
      { r with status := .held, bus := none } else r).1
  refine ⟨fun k => ?_, fun l => ?_, ?_, fun c k => ?_, fun p => ?_⟩
  · simp [State.assignBus, State.busOwner, State.mapLines, tget_tset]
  · refine (Eq.trans ?_ (lines l)).trans (by simp)
    simp [State.assignBus, State.line]
  · simp [State.assignBus, State.discard, MixEngine.writeCells]
  · have cells : (s.assignBus b q).mix.cells = (s.mix.writeCells (fun c k => k == b &&
        (match Contributor.line? c with | some l => !((s.line l).owner == some q) | none => false)) 0).cells := rfl
    rw [cells, (MixEngine.writeCells_spec s.mix _ 0).2]
    cases Contributor.line? c <;> simp [bne]
  · exact discard_lost rfl rfl p

/-- CLEAR-MATRIX's lines, bank, players, events and completions (R96). -/
theorem clearAll_spec (s : State) :
    s.clearAll.lineTable.busOwner = s.lineTable.busOwner ∧
    (∀ l, s.clearAll.line l =
      if (s.line l).owner.isSome then (s.line l).cleaned none else { s.line l with waiters := tall none }) ∧
    s.clearAll.mix = { (s.mix.cleaned fun l => (s.line l).owner.isSome).writeCells (fun _ _ => true) 0 with
      parkGain := aimed s.mix.parkGain 0, staging := s.clearAll.mix.staging } ∧
    (∀ q, s.clearAll.player q =
        (if (s.player q).state = .idle then s.player q else endedPlayer .cleared (s.player q).addr) ∧
      tget s.clearAll.mix.staging q = if (s.player q).state = .idle then tget s.mix.staging q else none) ∧
    EventsAdded s s.clearAll (fun q l e => match e with
      | .taken => (s.line l).owner == some q
      | .talkEnded => q != 0 && (s.line l).talk.any fun x => x.talker == q
      | _ => false) ∧
    s.clearAll.notice =
      { s.notice with events := s.clearAll.notice.events, unreadView := s.clearAll.notice.unreadView } ∧
    (∀ q, s.clearAll.port q =
      if s.waitsOnLine q = true then delivered (s.port q) (ends .ended .cleared 255) else s.port q) ∧
    s.clearAll.ports.freeze = s.ports.freeze ∧
    ∀ q, tget s.clearAll.notice.unreadView q =
      if s.waitsOnLine q = true ∧ (s.port q).slot.isWorking = true then true else tget s.notice.unreadView q := by
  let owned : Line → Bool := fun l => (s.line l).owner.isSome
  let raised : Port → Line → EventKind → Bool := fun p l k => match k with
    | .taken => (s.line l).owner == some p
    | .talkEnded => p != 0 && (s.line l).talk.any fun x => x.talker == p
    | _ => false
  let a := (s.withNotice (s.notice.raiseWhere raised)).mapLines fun l r =>
    if owned l then r.cleaned none else { r with waiters := tall none }
  let b := a.withMix { (s.mix.cleaned owned).writeCells (fun _ _ => true) 0 with parkGain := aimed s.mix.parkGain 0 }
  let u := b.endPlayers (fun _ => true) .cleared
  have ht : s.clearAll = u.deliverAll (fun q => s.waitsOnLine q) fun _ => Result.plain .ended .cleared 255 := rfl
  obtain ⟨e1, e2⟩ := State.endPlayers_spec b (fun _ => true) .cleared
  obtain ⟨d1, d2, d3⟩ := deliverAll_spec u (fun q => s.waitsOnLine q) fun _ => Result.plain .ended .cleared 255
  obtain ⟨n1, n2⟩ := NoticeUnit.raiseWhere_spec s.notice raised
  have un : u.notice = s.notice.raiseWhere raised := by simp [u, b, a]
  have up : ∀ q, u.port q = s.port q := port_congr (by simp [u, b, a])
  have bp : ∀ q, b.player q = s.player q := player_congr (by simp [b, a])
  have keep : (u.deliverAll (fun q => s.waitsOnLine q) fun _ => Result.plain .ended .cleared 255).mix = u.mix := by simp
  rw [ht]
  refine ⟨by simp [u, b, a, State.mapLines], fun l => ?_, ?_, fun q => ⟨?_, ?_⟩, fun q l k => ?_, ?_, fun q => ?_, ?_,
    fun q => ?_⟩
  · exact (line_congr (s := a) (by simp [u, b]) l).trans
      ((State.mapLines_spec _ fun l r => if owned l then r.cleaned none else { r with waiters := tall none }).1 l)
  · rw [keep]
    exact e2
  · refine (player_congr (s := u) (by simp) q).trans ((e1 q).1.trans ?_)
    rw [bp]
    simp only [true_and, ne_eq, ite_not]
  · rw [keep]
    refine (e1 q).2.trans ?_
    rw [bp]
    simp only [true_and, ne_eq, ite_not]
    rfl
  · rw [d3, un]
    exact n1 q l k
  · rw [d3, un]
    simp [NoticeUnit.raiseWhere]
  · rw [d1, up]
    rfl
  · rw [deliverAll_freeze]
    simp [u, b, a]
  · rw [d2, up, un]
    simp [NoticeUnit.raiseWhere]

/-! ## The capture -/

/-- The capture of a frame: nothing where none waits, else the buffer's fill and the completions (R157, R159, R160). -/
theorem capture_spec (s : State) :
    match s.captureWinner with
    | none => s.capture = s
    | some w =>
      s.capture.meter = { live := tall ⟨0, 0⟩, buffer := some ⟨s.meter.live, w, 48000⟩, waiting := tall false } ∧
      (∀ q, s.capture.port q = if tget s.meter.waiting q = true then delivered (s.port q)
        (if q = w then ends .done .none s.meter.clipped else ends .ended .locked w.val) else s.port q) ∧
      s.capture.ports.freeze = s.ports.freeze ∧
      (∀ q, tget s.capture.notice.unreadView q =
        if tget s.meter.waiting q = true ∧ (s.port q).slot.isWorking = true then true else tget s.notice.unreadView q) ∧
      s.capture.notice = { s.notice with unreadView := s.capture.notice.unreadView } := by
  cases h : s.captureWinner with
  | none => simp [State.capture, h]
  | some w =>
    let a := s.withMeter { live := tall ⟨0, 0⟩, buffer := some ⟨s.meter.live, w, 48000⟩, waiting := tall false }
    let r : Port → Result := fun q =>
      if q = w then Result.plain .done .none s.meter.clipped else Result.plain .ended .locked w.val
    have ht : s.capture = a.deliverAll (fun q => tget s.meter.waiting q) r := by simp [State.capture, h, a, r]
    obtain ⟨d1, d2, d3⟩ := deliverAll_spec a (fun q => tget s.meter.waiting q) r
    dsimp only
    rw [ht]
    exact ⟨by simp [a], d1, by rw [deliverAll_freeze]; rfl, d2, d3⟩

/-! ## Timers -/

/-- Every frame timer one frame on (R3, log 5). -/
theorem tickTimers_spec (s : State) :
    (∀ l, s.tickTimers.line l =
      { s.line l with waiters := tmake fun p => (tget (s.line l).waiters p).map TimeLeft.tick }) ∧
    s.tickTimers.lineTable.busOwner = s.lineTable.busOwner ∧
    s.tickTimers.cue = { s.cue with loaders := s.tickTimers.cue.loaders } ∧
    (∀ p, s.tickTimers.loader p = { s.loader p with timer := (s.loader p).timer.map fun n => n - 1 }) ∧
    (∀ p, s.tickTimers.player p = { s.player p with state := (s.player p).state.tick }) ∧
    s.tickTimers.meter = { s.meter with buffer := s.meter.buffer.map fun b => { b with timer := b.timer - 1 } } ∧
    s.tickTimers.clock = s.clock.tick := by
  have lines := (State.mapLines_spec s fun _ r => { r with waiters := tmake fun p => (tget r.waiters p).map TimeLeft.tick }).1
  refine ⟨fun l => ?_, ?_, ?_, fun p => ?_, fun p => ?_, ?_, ?_⟩
  · exact (line_congr (by simp [State.tickTimers]) l).trans (lines l)
  · simp [State.tickTimers, State.mapLines]
  · simp [State.tickTimers]
  · simp [State.tickTimers, State.loader]
  · simp [State.tickTimers, State.player]
  · simp [State.tickTimers]
  · simp [State.tickTimers]

/-! ## Port reset -/

/-- The lines and the bank after a port reset in the blocks: the port's waits and talk slots (R83, R105). -/
theorem portCleared_lines (s : State) (p : Port) :
    (∀ l, (portCleared s p).line l = { s.line l with
      talk := if (s.line l).talk.any (fun t => t.talker == p) then none else (s.line l).talk
      waiters := tset (s.line l).waiters p none }) ∧
    (portCleared s p).lineTable.busOwner = s.lineTable.busOwner ∧
    (portCleared s p).mix = { s.mix.talkCleared (fun l => (s.line l).talk.any fun t => t.talker == p) with
      staging := (portCleared s p).mix.staging } := by
  let a := (s.modPort p fun _ => { CtrlPort.reset with held := true }).withdrawWaits p
  have al : ∀ l, a.line l = { s.line l with waiters := tset (s.line l).waiters p none } :=
    (State.mapLines_spec (s.modPort p fun _ => { CtrlPort.reset with held := true })
      fun _ r => { r with waiters := tset r.waiters p none }).1
  let sel : Line → Bool := fun l => (a.line l).talk.any fun t => t.talker == p
  have hsel : sel = fun l => (s.line l).talk.any fun t => t.talker == p := funext fun l => by simp [sel, al]
  obtain ⟨c1, c2, c3⟩ := clearTalks_spec a sel
  obtain ⟨e1, e2⟩ := State.endPlayers_spec (a.clearTalks sel) (fun q => q == p) .portReset
  have blocks : (portCleared s p).lineTable = (a.clearTalks sel).lineTable ∧
      (portCleared s p).mix = ((a.clearTalks sel).endPlayers (fun q => q == p) .portReset).mix := by
    simp [portCleared, State.clearTalksOf, a, sel]
  refine ⟨fun l => ?_, ?_, ?_⟩
  · rw [line_congr blocks.1, c1, al, hsel]
  · rw [blocks.1, c2]
    simp [a, State.withdrawWaits, State.mapLines]
  · rw [blocks.2, e2, c3, hsel]
    simp [a]

/-- The players and groups after a port reset in the blocks (R140). -/
theorem portCleared_players (s : State) (p : Port) (q : Port) :
    (portCleared s p).player q =
      (if q = p ∧ (s.player q).state ≠ .idle then endedPlayer .portReset (s.player q).addr else s.player q) ∧
    tget (portCleared s p).mix.staging q =
      if q = p ∧ (s.player q).state ≠ .idle then none else tget s.mix.staging q := by
  let a := ((s.modPort p fun _ => { CtrlPort.reset with held := true }).withdrawWaits p).clearTalksOf p
  obtain ⟨e1, e2⟩ := (State.endPlayers_spec a (fun q => q == p) .portReset).1 q
  have same : a.player q = s.player q := player_congr (by simp [a]) q
  have staging : a.mix.staging = s.mix.staging := by
    simp [a, State.clearTalksOf, State.clearTalks, MixEngine.talkCleared, MixEngine.writeTalkLevels, MixEngine.writeTrims]
  rw [same] at e1 e2
  rw [staging] at e2
  constructor
  · refine (player_congr (s := a.endPlayers (fun q => q == p) .portReset) (by simp [portCleared, a]) q).trans ?_
    simpa using e1
  · rw [show (portCleared s p).mix = (a.endPlayers (fun q => q == p) .portReset).mix by simp [portCleared, a]]
    simpa using e2

/-- The ports after a port reset in the blocks: EMPTY, silent and held (R184). -/
theorem portCleared_ports (s : State) (p : Port) :
    (∀ q, (portCleared s p).port q = if q = p then { CtrlPort.reset with held := true } else s.port q) ∧
    (portCleared s p).ports.freeze = s.ports.freeze := by
  have same : (portCleared s p).ports = (s.modPort p fun _ => { CtrlPort.reset with held := true }).ports := by
    simp [portCleared]
  obtain ⟨h1, h2⟩ := State.modPort_spec s p fun _ => { CtrlPort.reset with held := true }
  exact ⟨fun q => (port_congr same q).trans (h1 q), by rw [same, h2]⟩

/-- The abandoning of a load reads and writes only the Cue Store (R127). -/
theorem abandonLoad_cue {s t : State} (h : t.cue = s.cue) (p : Port) : (t.abandonLoad p).cue = (s.abandonLoad p).cue := by
  unfold State.abandonLoad
  rw [loader_congr h]
  split
  · simp [State.setLoader, h]
  · exact h

/-- The other blocks after a port reset (R127, R151, R162). -/
theorem portCleared_blocks (s : State) (p : Port) :
    (portCleared s p).cue = (s.abandonLoad p).cue ∧
    (portCleared s p).meter = (s.resetMeter p).meter ∧
    (portCleared s p).notice = (s.resetNotices p).notice ∧
    (portCleared s p).clock = s.clock ∧ (portCleared s p).free = s.free ∧ (portCleared s p).pending = s.pending := by
  refine ⟨?_, ?_, ?_, by simp [portCleared], by simp [portCleared], by simp [portCleared]⟩
  · simp only [portCleared, State.resetNotices_frame, State.resetMeter_frame]
    exact abandonLoad_cue (by simp) p
  · simp [portCleared, State.resetMeter, State.snapHolder]
  · simp [portCleared, State.resetNotices]

end Sys2Proof.Proofs.Effects


namespace Sys2Proof.Proofs.Outputs

open Sys2Proof Sys2Proof.Machine Sys2Proof.Safety Sys2Proof.Proofs.Courses Sys2Proof.Proofs.Effects

/-! ## Currents, tone phase and outputs -/

@[simp] theorem aimed_target (r : Ramp) (v : Nat) : (aimed r v).target = v := rfl

@[simp] theorem aimed_current (r : Ramp) (v : Nat) : (aimed r v).current = r.current := rfl

/-- A coefficient that is perhaps aimed elsewhere has its current as before. -/
@[simp] theorem ite_aimed_current (c : Prop) [Decidable c] (r : Ramp) (v : Nat) :
    (if c then aimed r v else r).current = r.current := by split <;> rfl

/-- The two banks have the same currents, tone phase and outputs (R24, R29, R34, R8). -/
def SameSound (m n : MixEngine) : Prop :=
  (∀ k b, (tget (tget n.cells k) b).current = (tget (tget m.cells k) b).current) ∧
  (∀ l, (tget n.trim l).current = (tget m.trim l).current ∧ (tget n.talkLevel l).current = (tget m.talkLevel l).current) ∧
  n.parkGain.current = m.parkGain.current ∧ n.tonePhase = m.tonePhase ∧ n.out = m.out

theorem SameSound.refl (m : MixEngine) : SameSound m m := ⟨fun _ _ => rfl, fun _ => ⟨rfl, rfl⟩, rfl, rfl, rfl⟩

theorem SameSound.of_eq {m n : MixEngine} (h : n = m) : SameSound m n := h ▸ .refl m

theorem SameSound.trans {m n o : MixEngine} (h : SameSound m n) (k : SameSound n o) : SameSound m o :=
  ⟨fun c b => (k.1 c b).trans (h.1 c b), fun l => ⟨(k.2.1 l).1.trans (h.2.1 l).1, (k.2.1 l).2.trans (h.2.1 l).2⟩,
    k.2.2.1.trans h.2.2.1, k.2.2.2.1.trans h.2.2.2.1, k.2.2.2.2.trans h.2.2.2.2⟩

theorem SameSound.writeCells (m : MixEngine) (sel : Contributor → Bus → Bool) (v : Nat) : SameSound m (m.writeCells sel v) :=
  ⟨fun c b => by simp [(MixEngine.writeCells_spec m sel v).2], fun _ => ⟨rfl, rfl⟩, rfl, rfl, rfl⟩

theorem SameSound.writeTalkLevels (m : MixEngine) (sel : Line → Bool) (v : Nat) : SameSound m (m.writeTalkLevels sel v) :=
  ⟨fun _ _ => rfl, fun l => ⟨rfl, by simp [(MixEngine.writeTalkLevels_spec m sel v).2]⟩, rfl, rfl, rfl⟩

theorem SameSound.writeTrims (m : MixEngine) (sel : Line → Bool) (stored duck : Line → Nat) :
    SameSound m (m.writeTrims sel stored duck) :=
  ⟨fun _ _ => rfl, fun l => ⟨by simp [(MixEngine.writeTrims_spec m sel stored duck).2 l], rfl⟩, rfl, rfl, rfl⟩

theorem SameSound.talkTaken (m : MixEngine) (l : Line) (x : TalkSlot) : SameSound m (m.talkTaken l x) :=
  ((SameSound.writeTalkLevels m _ _).trans (.writeTrims _ _ _ _)).trans (.refl _)

theorem SameSound.talkCleared (m : MixEngine) (sel : Line → Bool) : SameSound m (m.talkCleared sel) :=
  (SameSound.writeTalkLevels m _ _).trans (.writeTrims _ _ _ _)

theorem SameSound.cleaned (m : MixEngine) (sel : Line → Bool) : SameSound m (m.cleaned sel) :=
  ((SameSound.writeCells m _ _).trans (.writeTalkLevels _ _ _)).trans (.writeTrims _ _ _ _)

theorem SameSound.action (m : MixEngine) (a : Action) : SameSound m (actionOnMix m a) := by
  cases a with
  | cell c b v => exact .writeCells m _ v
  | trim l v => exact .writeTrims m _ _ _
  | place l bus hold => exact .refl m
  | tone l on => exact .refl m

theorem SameSound.actions (g : List Staged) (m : MixEngine) :
    SameSound m (g.foldl (fun m a => actionOnMix m a.action) m) := by
  induction g generalizing m with
  | nil => exact .refl m
  | cons a rest ih => exact (SameSound.action m a.action).trans (ih _)

/-- A change of a line's owner, in the bank: the clean-up, and the discards. -/
theorem changeOwner_mix (s : State) (l : Line) (prev : Port) (new : Option Port) (actor : Port) :
    (s.changeOwner l prev new actor).mix =
      { s.mix.cleaned (fun k => k == l) with staging := (s.changeOwner l prev new actor).mix.staging } := by
  unfold State.changeOwner
  dsimp only
  split
  · rw [(State.deliver_frame _ _ _).2.1, (State.discard_spec _ _).2]
    simp
  · rw [(State.discard_spec _ _).2]
    simp

/-- Moves of the Line Table and the bank write targets, never currents (R29). -/
theorem lineMove_sound {s t : State} (m : LineMove s t) : SameSound s.mix t.mix := by
  cases m with
  | act p a _ _ =>
    rw [performAction_mix]
    exact .action _ _
  | park x v _ => exact .refl _
  | changeOwner l prev new actor _ _ =>
    rw [changeOwner_mix]
    exact (SameSound.cleaned s.mix _).trans (.refl _)
  | assignBus b q =>
    obtain ⟨-, -, mix, cells, -⟩ := assignBus_spec s b q
    refine ⟨fun c k => by simp [cells], ?_⟩
    rw [mix]
    exact ⟨fun _ => ⟨rfl, rfl⟩, rfl, rfl, rfl⟩
  | clearAll =>
    obtain ⟨-, -, mix, -⟩ := clearAll_spec s
    rw [mix]
    exact ((SameSound.cleaned s.mix _).trans (.writeCells _ _ _)).trans
      ⟨fun _ _ => rfl, fun _ => ⟨rfl, rfl⟩, rfl, rfl, rfl⟩
  | talkOn l x _ _ _ =>
    rw [talkOn_mix]
    exact .talkTaken _ _ _
  | clearTalks sel =>
    rw [(clearTalks_spec s sel).2.2]
    exact .talkCleared _ _
  | applyPending p =>
    have spec := applyPending_spec s p
    split at spec
    · rw [spec]
      exact .refl _
    · rw [spec.2.2.1]
      exact (SameSound.actions _ s.mix).trans (.refl _)
  | _ => exact .of_eq (by simp)

theorem blockMove_sound {s t : State} (m : BlockMove s t) : SameSound s.mix t.mix := by
  cases m with
  | notice w e f x => exact .refl _
  | line m => exact lineMove_sound m
  | load m => exact .of_eq m.frame.2.1
  | player m =>
    rw [m.frame.2.1]
    exact .refl _
  | meter m => exact .of_eq m.frame.2.1
  | clock m => exact .of_eq m.frame.2.1
  | stray p code r _ _ _ => exact .of_eq (by simp)
  | tick => exact .of_eq (by simp)

/-- No move outside the frame event's own moves a current, the tone phase or an output. -/
theorem move_sound {s t : State} (m : Move s t) : SameSound s.mix t.mix := by
  cases m with
  | block m => exact blockMove_sound m
  | reset p =>
    rw [(portCleared_lines s p).2.2]
    exact (SameSound.talkCleared s.mix _).trans (.refl _)
  | _ => exact .of_eq (by simp)

/-- No move touches the queue. -/
theorem move_pending {s t : State} (m : Move s t) : t.pending = s.pending := by
  cases m with
  | block m =>
    cases m with
    | line m => cases m <;> simp
    | load m => exact m.frame.2.2.2.2.2.2.2
    | player m => exact m.frame.2.2.2.2.2.2.2
    | meter m => exact m.frame.2.2.2.2.2
    | clock m => exact m.frame.2.2.2.2.2.2.2
    | _ => simp
  | reset p => exact (portCleared_blocks s p).2.2.2.2.2
  | _ => simp

theorem frameMove_pending {s t : State} (m : FrameMove s t) : t.pending = s.pending := by
  cases m with
  | other m => exact move_pending m
  | _ => rfl

/-- Settles O2: every command takes its course, and only the courses of a frame event and of power-on reset hold a move of
currents, tone phase or outputs. -/
theorem onlyFrameEventsMoveCurrents : Obligations.OnlyFrameEventsMoveCurrents := by
  intro c s
  obtain ⟨t, run, course⟩ := exec_course c s
  refine ⟨t, run, ?_⟩
  cases course with
  | moves m =>
    refine ⟨kept_of_moves (P := fun u => u.pending = s.pending) (fun _ _ m h => (move_pending m).trans h) m rfl, fun _ _ => ?_⟩
    exact kept_of_moves (P := fun u => SameSound s.mix u.mix) (fun _ _ m h => h.trans (move_sound m)) m (.refl _)
  | frame rx m =>
    exact ⟨kept_of_moves (P := fun u => u.pending = s.pending) (fun _ _ m h => (frameMove_pending m).trans h) m rfl,
      fun h => absurd rfl (h rx)⟩
  | freeze => exact ⟨by simp, fun _ _ => SameSound.of_eq (by simp)⟩
  | thaw _ => exact ⟨by simp, fun _ _ => SameSound.of_eq (by simp)⟩
  | told => exact ⟨by simp, fun _ _ => SameSound.of_eq (by simp)⟩
  | powerOn => exact ⟨rfl, fun _ h => absurd rfl h⟩

/-! ## Ranges of samples and meters -/

/-- The output law reads only the outputs, the live meters and the buffer. -/
theorem outputLaw_congr {s t : State} (h1 : t.mix.out = s.mix.out) (h2 : t.meter.live = s.meter.live)
    (h3 : t.meter.buffer = s.meter.buffer) (h : OutputLaw s) : OutputLaw t := by
  simpa [OutputLaw, h1, h2, h3] using h

theorem outputLaw_of_meter {s t : State} (h1 : t.mix.out = s.mix.out) (h2 : t.meter = s.meter) (h : OutputLaw s) :
    OutputLaw t := outputLaw_congr h1 (by rw [h2]) (by rw [h2]) h

/-- A meter in range takes a report in range (R157). -/
theorem report_inRange {m : Meter} (hp : m.peak ≤ 8388608) (hc : m.clips ≤ 65535) {v : Nat} (hv : v ≤ 8388608) (clip : Bool) :
    (m.report v clip).peak ≤ 8388608 ∧ (m.report v clip).clips ≤ 65535 := by
  refine ⟨max_le hp hv, ?_⟩
  unfold Meter.report
  dsimp only
  split
  · exact Nat.min_le_right _ _
  · exact hc

theorem meterMove_outputLaw {s t : State} (m : MeterMove s t) (h : OutputLaw s) : OutputLaw t := by
  obtain ⟨out, live, buffer⟩ := h
  cases m with
  | unlock => exact ⟨out, live, by simp⟩
  | report o magnitudes =>
    refine ⟨out, fun i => ?_, buffer⟩
    simp only [State.withMeter_meter, tget_tmake]
    exact report_inRange (live i).1 (live i).2 (magnitudes i) _
  | capture =>
    have spec := capture_spec s
    have mix : s.capture.mix = s.mix := by simp
    split at spec
    · rw [spec]
      exact ⟨out, live, buffer⟩
    · obtain ⟨meter, -⟩ := spec
      refine ⟨by rw [mix]; exact out, fun i => by simp [meter], fun b hb => ?_⟩
      simp only [meter, Option.mem_def, Option.some.injEq] at hb
      subst hb
      exact ⟨Nat.le_refl _, live⟩
  | abort p r _ => exact outputLaw_congr (s := s) (by simp) (by simp) (by simp) ⟨out, live, buffer⟩

theorem lineMove_meter {s t : State} (m : LineMove s t) : t.meter = s.meter := by
  cases m <;> simp

theorem blockMove_outputLaw {s t : State} (m : BlockMove s t) (h : OutputLaw s) : OutputLaw t := by
  have out : t.mix.out = s.mix.out := (blockMove_sound m).2.2.2.2
  cases m with
  | notice w e f x => exact h
  | line m => exact outputLaw_of_meter out (lineMove_meter m) h
  | load m => exact outputLaw_of_meter out m.frame.2.2.2.2.1 h
  | player m => exact outputLaw_of_meter out m.frame.2.2.2.2.1 h
  | meter m => exact meterMove_outputLaw m h
  | clock m => exact outputLaw_of_meter out m.frame.2.2.2.2.2.1 h
  | stray p code r _ _ _ => exact outputLaw_of_meter out (by simp) h
  | tick =>
    obtain ⟨-, -, -, -, -, meter, -⟩ := tickTimers_spec s
    refine ⟨by rw [out]; exact h.1, by rw [meter]; exact h.2.1, fun b hb => ?_⟩
    rw [meter] at hb
    simp only [Option.mem_def, Option.map_eq_some_iff] at hb
    obtain ⟨b', hb', rfl⟩ := hb
    obtain ⟨timer, entries⟩ := h.2.2 b' hb'
    exact ⟨by dsimp only; omega, entries⟩

theorem move_outputLaw {s t : State} (m : Move s t) (h : OutputLaw s) : OutputLaw t := by
  have out : t.mix.out = s.mix.out := (move_sound m).2.2.2.2
  cases m with
  | block m => exact blockMove_outputLaw m h
  | snapWaits p args _ => exact outputLaw_congr out (by simp) (by simp) h
  | reset p =>
    have meter := (portCleared_blocks s p).2.1
    refine ⟨by rw [out]; exact h.1, by rw [meter]; exact h.2.1, fun b hb => h.2.2 b ?_⟩
    rw [meter] at hb
    simp only [State.resetMeter, State.withMeter_meter] at hb
    split at hb
    · cases hb
    · exact hb
  | _ => exact outputLaw_of_meter out (by simp) h

theorem frameMove_outputLaw {s t : State} (m : FrameMove s t) (h : OutputLaw s) : OutputLaw t := by
  cases m with
  | other m => exact move_outputLaw m h
  | ramps => exact h
  | transmit x range => exact ⟨range, h.2⟩
  | phase => exact h

/-! ## Debounce counts -/

/-- Every count of `t` is the one of `s`, or within the debounce (R52, R53). -/
def CountsKept (s t : State) : Prop :=
  ∀ l, ((t.line l).connCount = (s.line l).connCount ∨ (t.line l).connCount ≤ 384) ∧
    ((t.line l).attnCount = (s.line l).attnCount ∨ (t.line l).attnCount ≤ 384)

theorem CountsKept.of_table {s t : State} (h : t.lineTable = s.lineTable) : CountsKept s t := fun l => by
  simp [line_congr h]

theorem CountsKept.of_same {s t : State}
    (h : ∀ l, (t.line l).connCount = (s.line l).connCount ∧ (t.line l).attnCount = (s.line l).attnCount) : CountsKept s t :=
  fun l => ⟨.inl (h l).1, .inl (h l).2⟩

theorem CountsKept.law {s t : State} (k : CountsKept s t) (h : DebounceLaw s) : DebounceLaw t := fun l => by
  have := h l
  have := k l
  omega

/-- An action leaves a line's counts, conditions, owner, talk slot and waiters. -/
theorem actionOnLine_kept (k : Line) (r : LineRec) (a : Action) :
    actionOnLine k r a = { r with
      status := (actionOnLine k r a).status, bus := (actionOnLine k r a).bus, hold := (actionOnLine k r a).hold
      tone := (actionOnLine k r a).tone } := by
  unfold actionOnLine LineRec.placedOn
  (repeat' split) <;> rfl

/-- A group's actions leave a line's counts, conditions, owner, talk slot and waiters. -/
theorem foldl_actionOnLine_kept (k : Line) (g : List Staged) (r : LineRec) :
    g.foldl (fun r a => actionOnLine k r a.action) r = { r with
      status := (g.foldl (fun r a => actionOnLine k r a.action) r).status
      bus := (g.foldl (fun r a => actionOnLine k r a.action) r).bus
      hold := (g.foldl (fun r a => actionOnLine k r a.action) r).hold
      tone := (g.foldl (fun r a => actionOnLine k r a.action) r).tone } := by
  induction g generalizing r with
  | nil => rfl
  | cons a rest ih =>
    rw [List.foldl_cons, ih, actionOnLine_kept]

theorem debounce_le {deb raw : Bool} {n : Nat} (h : n < 384) : debounce deb raw n ≤ 384 := by
  unfold debounce
  split <;> omega

theorem lineMove_counts {s t : State} (m : LineMove s t) : CountsKept s t := by
  cases m with
  | act p a _ _ => exact .of_same fun l => by rw [performAction_line, actionOnLine_kept]; exact ⟨rfl, rfl⟩
  | park x v _ => exact .of_table rfl
  | attention l =>
    refine .of_same fun k => ?_
    rw [(State.setAttention_spec s l false).1]
    split <;> simp_all
  | grant l p _ =>
    refine .of_same fun k => ?_
    rw [(State.modLine_spec s l _).1]
    split <;> simp_all [LineRec.granted]
  | changeOwner l prev new actor _ _ =>
    obtain ⟨⟨self, -, ⟨-, others⟩, -⟩, -⟩ := State.changeOwner_spec s l prev new actor
    refine .of_same fun k => ?_
    by_cases e : k = l
    · rw [e, self]
      exact ⟨rfl, rfl⟩
    · rw [others k e]
      exact ⟨rfl, rfl⟩
  | assignBus b q =>
    refine .of_same fun k => ?_
    rw [(assignBus_spec s b q).2.1]
    split <;> exact ⟨rfl, rfl⟩
  | clearAll =>
    refine .of_same fun k => ?_
    rw [(clearAll_spec s).2.1]
    split <;> exact ⟨rfl, rfl⟩
  | endWait l p why _ =>
    obtain ⟨⟨-, others⟩, self, -⟩ := State.endWait_spec s l p why
    refine .of_same fun k => ?_
    by_cases e : k = l
    · rw [e, self]
      exact ⟨rfl, rfl⟩
    · rw [others k e]
      exact ⟨rfl, rfl⟩
  | talkOn l x _ _ _ =>
    refine .of_same fun k => ?_
    rw [talkOn_line]
    split <;> simp_all
  | clearTalks sel => exact .of_same fun k => by rw [(clearTalks_spec s sel).1]; exact ⟨rfl, rfl⟩
  | applyPending p =>
    have spec := applyPending_spec s p
    split at spec
    · rw [spec]
      exact .of_table rfl
    · refine .of_same fun k => ?_
      rw [spec.1, foldl_actionOnLine_kept]
      exact ⟨rfl, rfl⟩
  | connect l => intro k; rw [takeConnect_line]; split <;> simp_all
  | disconnect l => intro k; rw [takeDisconnect_line]; split <;> simp_all
  | attentionRaised l => intro k; rw [takeAttentionRaised_line]; split <;> simp_all
  | attentionDropped l => intro k; rw [takeAttentionDropped_line]; split <;> simp_all
  | debounce rx below =>
    intro k
    have line := (State.mapLines_spec s fun l r => { r with
      connCount := debounce r.connected (rawConnected rx l) r.connCount
      attnCount := debounce r.attnRaised (rawAttention rx l) r.attnCount }).1 k
    rw [State.stepDebounce, line]
    exact ⟨.inr (debounce_le (below k).1), .inr (debounce_le (below k).2)⟩

theorem blockMove_counts {s t : State} (m : BlockMove s t) : CountsKept s t := by
  cases m with
  | notice w e f x => exact .of_table rfl
  | line m => exact lineMove_counts m
  | load m => exact .of_table m.frame.1
  | player m => exact .of_table m.frame.1
  | meter m => exact .of_table m.frame.1
  | clock m => exact .of_table m.frame.1
  | stray p code r _ _ _ => exact .of_table (by simp)
  | tick => exact .of_same fun l => by rw [(tickTimers_spec s).1]; exact ⟨rfl, rfl⟩

theorem frameMove_counts {s t : State} (m : FrameMove s t) : CountsKept s t := by
  cases m with
  | other m =>
    cases m with
    | block m => exact blockMove_counts m
    | claimWaits p q l args w _ _ _ =>
      refine .of_same fun k => ?_
      have line := (line_congr (s := s.modLine l fun r => { r with waiters := tset r.waiters p (some w) })
        (State.goWorking_frame _ p 0x30 args).1 k).trans ((State.modLine_spec s l _).1 k)
      rw [line]
      split <;> simp_all
    | reset p => exact .of_same fun l => by rw [(portCleared_lines s p).1]; exact ⟨rfl, rfl⟩
    | _ => exact .of_table (by simp)
  | _ => exact .of_table rfl

/-- Settles O59: outputs and meters are written in range, and a count goes up only where no change of its line is due. -/
theorem outputAndDebounceLawsAreKept : Obligations.OutputAndDebounceLawsAreKept := by
  intro s t output debounce run
  refine step_keeps (P := fun u => OutputLaw u ∧ DebounceLaw u) (fun _ _ h => h) (fun _ _ m h => ?_) (fun _ _ h => h)
    (fun _ h => h) (fun u _ => ?_) run ⟨output, debounce⟩
  · exact ⟨frameMove_outputLaw m h.1, (frameMove_counts m).law h.2⟩
  · have output : OutputLaw State.reset := by decide
    have debounce : DebounceLaw State.reset := by decide
    exact ⟨output, debounce⟩

end Sys2Proof.Proofs.Outputs


namespace Sys2Proof.Proofs.Bank

open Sys2Proof Sys2Proof.Machine Sys2Proof.Safety Sys2Proof.Proofs.Courses Sys2Proof.Proofs.Effects
  Sys2Proof.Proofs.Outputs

/-! ## Ranges of the coefficient bank -/

/-- The trims of one line, with the trim target's definition (R28, R30). -/
def TrimInRange (stored duck : Nat) (trim level : Ramp) : Prop :=
  stored ≤ 65535 ∧ duck ≤ 32768 ∧ trim.target = trimTarget stored duck ∧ RampInRange trim ∧ RampInRange level

/-- The bank law without its clause on staged actions. -/
def BankInRange (m : MixEngine) : Prop :=
  (∀ c b, RampInRange (tget (tget m.cells c) b)) ∧
  (∀ l, TrimInRange (tget m.storedTrim l) (tget m.trimDuck l) (tget m.trim l) (tget m.talkLevel l)) ∧
  RampInRange m.parkGain ∧ m.tonePhase < 48

/-- The bank law's clause on staged actions. -/
def StagedInRange (m : MixEngine) : Prop := ∀ p, ∀ g ∈ tget m.staging p, ∀ a ∈ g, actionCoefficient a.action ≤ 65535

theorem bankLaw_iff (s : State) : BankLaw s ↔ BankInRange s.mix ∧ StagedInRange s.mix :=
  ⟨fun ⟨h1, h2, h3, h4, h5⟩ => ⟨⟨h1, h2, h3, h4⟩, h5⟩, fun ⟨⟨h1, h2, h3, h4⟩, h5⟩ => ⟨h1, h2, h3, h4, h5⟩⟩

/-- The bank law speaks of the ramps, the trims and the tone phase. -/
theorem BankInRange.of_ramps {m n : MixEngine} (h : BankInRange m) (cells : n.cells = m.cells)
    (stored : n.storedTrim = m.storedTrim) (duck : n.trimDuck = m.trimDuck) (trim : n.trim = m.trim)
    (level : n.talkLevel = m.talkLevel) (park : n.parkGain = m.parkGain) (phase : n.tonePhase < 48) : BankInRange n := by
  obtain ⟨h1, h2, h3, -⟩ := h
  rw [BankInRange, cells, stored, duck, trim, level, park]
  exact ⟨h1, h2, h3, phase⟩

theorem aimed_inRange {r : Ramp} (h : RampInRange r) {v : Nat} (hv : v ≤ 65535) : RampInRange (aimed r v) := ⟨hv, h.2⟩

/-- A duck never raises a trim (R30). -/
theorem trimTarget_le {stored duck : Nat} (h1 : stored ≤ 65535) (h2 : duck ≤ 32768) : trimTarget stored duck ≤ 65535 := by
  have : stored * duck ≤ stored * 32768 := Nat.mul_le_mul_left _ h2
  unfold trimTarget
  omega

theorem BankInRange.writeCells {m : MixEngine} (h : BankInRange m) (sel : Contributor → Bus → Bool) {v : Nat} (hv : v ≤ 65535) :
    BankInRange (m.writeCells sel v) := by
  obtain ⟨cells, rest⟩ := h
  refine ⟨fun c b => ?_, rest⟩
  rw [(MixEngine.writeCells_spec m sel v).2]
  split
  · exact aimed_inRange (cells c b) hv
  · exact cells c b

theorem BankInRange.writeTalkLevels {m : MixEngine} (h : BankInRange m) (sel : Line → Bool) {v : Nat} (hv : v ≤ 65535) :
    BankInRange (m.writeTalkLevels sel v) := by
  obtain ⟨cells, trims, rest⟩ := h
  refine ⟨cells, fun l => ?_, rest⟩
  obtain ⟨h1, h2, h3, h4, level⟩ := trims l
  refine ⟨h1, h2, h3, h4, ?_⟩
  rw [(MixEngine.writeTalkLevels_spec m sel v).2]
  split
  · exact aimed_inRange level hv
  · exact level

theorem BankInRange.writeTrims {m : MixEngine} (h : BankInRange m) (sel : Line → Bool) {stored duck : Line → Nat}
    (hs : ∀ l, stored l ≤ 65535) (hd : ∀ l, duck l ≤ 32768) : BankInRange (m.writeTrims sel stored duck) := by
  obtain ⟨cells, trims, rest⟩ := h
  refine ⟨cells, fun l => ?_, rest⟩
  obtain ⟨w1, w2, w3⟩ := (MixEngine.writeTrims_spec m sel stored duck).2 l
  obtain ⟨h1, h2, h3, h4, level⟩ := trims l
  rw [w1, w2, w3]
  cases sel l
  · exact ⟨h1, h2, h3, h4, level⟩
  · exact ⟨hs l, hd l, rfl, aimed_inRange h4 (trimTarget_le (hs l) (hd l)), level⟩

theorem BankInRange.stored {m : MixEngine} (h : BankInRange m) (l : Line) : tget m.storedTrim l ≤ 65535 := (h.2.1 l).1

theorem BankInRange.duck {m : MixEngine} (h : BankInRange m) (l : Line) : tget m.trimDuck l ≤ 32768 := (h.2.1 l).2.1

theorem BankInRange.talkTaken {m : MixEngine} (h : BankInRange m) (l : Line) {x : TalkSlot} (hg : x.gain ≤ 65535)
    (hd : x.duck ≤ 32768) : BankInRange (m.talkTaken l x) :=
  (h.writeTalkLevels (fun k => k == l) hg).writeTrims (fun k => k == l) (h.writeTalkLevels _ hg).stored fun _ => hd

theorem BankInRange.talkCleared {m : MixEngine} (h : BankInRange m) (sel : Line → Bool) : BankInRange (m.talkCleared sel) :=
  (h.writeTalkLevels sel (Nat.zero_le _)).writeTrims sel (h.writeTalkLevels sel (Nat.zero_le _)).stored fun _ => le_refl _

theorem BankInRange.cleaned {m : MixEngine} (h : BankInRange m) (sel : Line → Bool) : BankInRange (m.cleaned sel) :=
  ((h.writeCells _ (Nat.zero_le _)).writeTalkLevels sel (Nat.zero_le _)).writeTrims sel (fun _ => by omega) fun _ => le_refl _

theorem BankInRange.action {m : MixEngine} (h : BankInRange m) {a : Action} (ha : actionCoefficient a ≤ 65535) :
    BankInRange (actionOnMix m a) := by
  cases a with
  | cell c b v => exact h.writeCells _ ha
  | trim l v => exact h.writeTrims _ (fun _ => ha) h.duck
  | place l bus hold => exact h
  | tone l on => exact h

theorem BankInRange.actions {g : List Staged} (hg : ∀ a ∈ g, actionCoefficient a.action ≤ 65535) {m : MixEngine}
    (h : BankInRange m) : BankInRange (g.foldl (fun m a => actionOnMix m a.action) m) := by
  induction g generalizing m with
  | nil => exact h
  | cons a rest ih =>
    exact ih (fun b hb => hg b (List.mem_cons_of_mem _ hb)) (h.action (hg a List.mem_cons_self))

/-- A ramp step stays in range (R32). -/
theorem step_inRange {r : Ramp} (h : RampInRange r) : RampInRange r.step := by
  obtain ⟨h1, h2⟩ := h
  rw [Ramp.step_spec]
  refine ⟨h1, ?_⟩
  unfold stepped
  dsimp only
  split <;> omega

theorem step_target (r : Ramp) : r.step.target = r.target := by rw [Ramp.step_spec]

theorem BankInRange.stepRamps {m : MixEngine} (h : BankInRange m) : BankInRange m.stepRamps := by
  obtain ⟨cells, trims, park, phase⟩ := h
  refine ⟨fun c b => ?_, fun l => ?_, step_inRange park, phase⟩
  · simp only [MixEngine.stepRamps, tget_tmake]
    exact step_inRange (cells c b)
  · obtain ⟨h1, h2, h3, h4, level⟩ := trims l
    simp only [MixEngine.stepRamps, tget_tmake]
    exact ⟨h1, h2, (step_target _).trans h3, step_inRange h4, step_inRange level⟩

/-! ## Groups under moves -/

/-- A group of `t` was staged in `s` already. -/
def NoNewGroups (s t : State) : Prop :=
  ∀ p, tget t.mix.staging p = tget s.mix.staging p ∨ tget t.mix.staging p = none

theorem NoNewGroups.of_staging {s t : State} (h : t.mix.staging = s.mix.staging) : NoNewGroups s t := fun p => .inl (by rw [h])

theorem NoNewGroups.of_ite {s t : State} {c : Port → Prop} [DecidablePred c]
    (h : ∀ p, tget t.mix.staging p = if c p then none else tget s.mix.staging p) : NoNewGroups s t := fun p => by
  rw [h]
  by_cases hc : c p
  · exact .inr (if_pos hc)
  · exact .inl (if_neg hc)

theorem NoNewGroups.staged {s t : State} (n : NoNewGroups s t) (h : StagedInRange s.mix) : StagedInRange t.mix := by
  intro p g hg
  rcases n p with same | gone
  · rw [same] at hg
    exact h p g hg
  · rw [gone] at hg
    cases hg

theorem lineMove_noNewGroups {s t : State} (m : LineMove s t) : NoNewGroups s t := by
  cases m with
  | act p a _ _ => exact .of_staging (by rw [performAction_mix, actionOnMix_staging])
  | changeOwner l prev new actor _ _ =>
    exact .of_ite fun p => ((State.changeOwner_spec s l prev new actor).1.2.2.2.2.2.2 p).1
  | assignBus b q => exact .of_ite fun p => ((assignBus_spec s b q).2.2.2.2 p).1
  | clearAll =>
    intro p
    rw [((clearAll_spec s).2.2.2.1 p).2]
    split
    · exact .inl rfl
    · exact .inr rfl
  | talkOn l x _ _ _ => exact .of_staging (by rw [talkOn_mix]; rfl)
  | clearTalks sel => exact .of_staging (by rw [(clearTalks_spec s sel).2.2]; rfl)
  | applyPending p =>
    have spec := applyPending_spec s p
    split at spec
    · rw [spec]
      exact .of_staging rfl
    · refine .of_ite (c := fun q => q = p) fun q => ?_
      rw [spec.2.2.1]
      exact tget_tset _ _ _ _
  | _ => exact .of_staging (by simp [MixEngine.writePark])

theorem playerMove_noNewGroups {s t : State} (m : PlayerMove s t) :
    NoNewGroups s t ∨ ∃ p g, (s.player p).state = .stepping ∧ (∀ a ∈ g, Owns s p a.action ∧ actionCoefficient a.action ≤ 65535) ∧
      t.mix.staging = tset s.mix.staging p (some g) := by
  cases m with
  | ends p why a _ =>
    refine .inl fun q => ?_
    obtain ⟨-, -, gone, others⟩ := State.endPlayer_spec s p why a
    by_cases e : q = p
    · rw [e]
      exact .inr gone
    · exact .inl (others q e)
  | stage p g stepping _ _ _ actions => exact .inr ⟨p, g, stepping, actions, rfl⟩
  | _ => exact .inl (.of_staging (by simp))

theorem portCleared_noNewGroups (s : State) (p : Port) : NoNewGroups s (portCleared s p) :=
  .of_ite fun q => (portCleared_players s p q).2

/-! ## The bank law under moves -/

theorem lineMove_bank {s t : State} (m : LineMove s t) (h : BankInRange s.mix) (hg : StagedInRange s.mix) :
    BankInRange t.mix := by
  cases m with
  | act p a _ ha =>
    rw [performAction_mix]
    exact h.action ha
  | park x v hv => exact ⟨h.1, h.2.1, aimed_inRange h.2.2.1 hv, h.2.2.2⟩
  | changeOwner l prev new actor _ _ =>
    rw [changeOwner_mix]
    exact h.cleaned fun k => k == l
  | assignBus b q =>
    obtain ⟨-, -, mix, cells, -⟩ := assignBus_spec s b q
    refine ⟨fun c k => ?_, by rw [mix]; exact h.2⟩
    rw [cells]
    split
    · exact aimed_inRange (h.1 c k) (Nat.zero_le _)
    · exact h.1 c k
  | clearAll =>
    rw [(clearAll_spec s).2.2.1]
    have bank := (h.cleaned fun l => (s.line l).owner.isSome).writeCells (fun _ _ => true) (Nat.zero_le 65535)
    exact ⟨bank.1, bank.2.1, aimed_inRange h.2.2.1 (Nat.zero_le _), bank.2.2.2⟩
  | talkOn l x _ gain duck =>
    rw [talkOn_mix]
    exact h.talkTaken l gain duck
  | clearTalks sel =>
    rw [(clearTalks_spec s sel).2.2]
    exact h.talkCleared sel
  | applyPending p =>
    have spec := applyPending_spec s p
    split at spec
    · rw [spec]
      exact h
    · rename_i g staged
      rw [spec.2.2.1]
      exact h.actions (hg p g staged)
  | _ => simpa using h

theorem frameMove_bankLaw {s t : State} (m : FrameMove s t) (h : BankLaw s) : BankLaw t := by
  rw [bankLaw_iff] at h ⊢
  obtain ⟨bank, groups⟩ := h
  have kept : ∀ u : State, u.mix = s.mix → BankInRange u.mix ∧ StagedInRange u.mix := fun u e => e ▸ ⟨bank, groups⟩
  cases m with
  | other m =>
    cases m with
    | block m =>
      cases m with
      | notice w e f x => exact ⟨bank, groups⟩
      | line m => exact ⟨lineMove_bank m bank groups, (lineMove_noNewGroups m).staged groups⟩
      | load m => exact kept _ m.frame.2.1
      | player m =>
        refine ⟨by rw [m.frame.2.1]; exact bank, ?_⟩
        rcases playerMove_noNewGroups m with none_new | ⟨p, g, -, actions, staging⟩
        · exact none_new.staged groups
        · intro q x hx
          rw [staging, tget_tset] at hx
          split at hx
          · cases hx
            exact fun a ha => (actions a ha).2
          · exact groups q x hx
      | meter m => exact kept _ m.frame.2.1
      | clock m => exact kept _ m.frame.2.1
      | stray p code r _ _ _ => exact kept _ (by simp)
      | tick => exact kept _ (by simp)
    | reset p =>
      refine ⟨?_, (portCleared_noNewGroups s p).staged groups⟩
      have cleared := bank.talkCleared fun l => (s.line l).talk.any fun t => t.talker == p
      rw [(portCleared_lines s p).2.2]
      exact cleared.of_ramps rfl rfl rfl rfl rfl rfl cleared.2.2.2
    | _ => exact kept _ (by simp)
  | ramps => exact ⟨bank.stepRamps, groups⟩
  | transmit x _ => exact ⟨bank.of_ramps rfl rfl rfl rfl rfl rfl bank.2.2.2, groups⟩
  | phase => exact ⟨bank.of_ramps rfl rfl rfl rfl rfl rfl (Nat.mod_lt _ (by decide)), groups⟩

/-! ## The writes of R100 -/

/-- The talk writes of line `l` in a bank follow this talk slot (R100). -/
def TalkFollows (m : MixEngine) (l : Line) (talk : Option TalkSlot) : Prop :=
  (∀ t ∈ talk, t.gain ≤ 65535 ∧ t.duck ≤ 32768 ∧ (tget m.talkLevel l).target = t.gain ∧ tget m.trimDuck l = t.duck ∧
    tget m.lastTalk l = t.source) ∧
  (talk = none → (tget m.talkLevel l).target = 0 ∧ tget m.trimDuck l = 32768)

theorem talkWritesLaw_iff (s : State) : TalkWritesLaw s ↔ ∀ l, TalkFollows s.mix l (s.line l).talk := Iff.rfl

/-- Where the three items and the slot are as before, the writes follow as before. -/
theorem TalkFollows.congr {m n : MixEngine} {l : Line} {talk talk' : Option TalkSlot} (h : TalkFollows m l talk)
    (level : (tget n.talkLevel l).target = (tget m.talkLevel l).target) (duck : tget n.trimDuck l = tget m.trimDuck l)
    (last : tget n.lastTalk l = tget m.lastTalk l) (same : talk' = talk) : TalkFollows n l talk' := by
  subst same
  simpa only [TalkFollows, level, duck, last] using h

/-- An empty slot with the writes of a clearing. -/
theorem TalkFollows.none {m : MixEngine} {l : Line} (level : (tget m.talkLevel l).target = 0)
    (duck : tget m.trimDuck l = 32768) : TalkFollows m l none := by
  refine ⟨fun t ht => ?_, fun _ => ⟨level, duck⟩⟩
  cases ht

theorem TalkFollows.actions {l : Line} {talk : Option TalkSlot} (g : List Staged) {m : MixEngine} (h : TalkFollows m l talk) :
    TalkFollows (g.foldl (fun m a => actionOnMix m a.action) m) l talk := by
  induction g generalizing m with
  | nil => exact h
  | cons a rest ih =>
    refine ih ?_
    show TalkFollows (actionOnMix m a.action) l talk
    cases a.action with
    | trim k v =>
      refine h.congr rfl ?_ rfl rfl
      show tget (m.writeStoredTrim k v).trimDuck l = _
      rw [(MixEngine.writeStoredTrim_spec m k v).1]
    | _ => exact h

theorem lineMove_talk {s t : State} (m : LineMove s t) (h : TalkWritesLaw s) : TalkWritesLaw t := by
  rw [talkWritesLaw_iff] at h ⊢
  have kept : ∀ u : State, u.mix = s.mix → (∀ l, (u.line l).talk = (s.line l).talk) →
      ∀ l, TalkFollows u.mix l (u.line l).talk := fun u mix talk l => by
    rw [mix, talk]
    exact h l
  cases m with
  | act p a _ _ =>
    intro l
    rw [performAction_mix, performAction_line, actionOnLine_kept]
    exact (h l).actions [⟨0, a⟩]
  | park x v _ => exact h
  | attention l =>
    refine kept _ (by simp) fun k => ?_
    rw [(State.setAttention_spec s l false).1]
    split <;> simp_all
  | grant l p _ =>
    refine kept _ (by simp) fun k => ?_
    rw [(State.modLine_spec s l _).1]
    split <;> simp_all [LineRec.granted]
  | changeOwner l prev new actor _ _ =>
    obtain ⟨⟨self, -, ⟨-, others⟩, mix, -, bank, -⟩, -⟩ := State.changeOwner_spec s l prev new actor
    intro k
    obtain ⟨-, duck, -, level⟩ := bank k
    by_cases e : k = l
    · subst e
      rw [self]
      exact .none (by simp [level]) (by simp [duck])
    · rw [others k e]
      exact (h k).congr (by simp [level, e]) (by simp [duck, e]) (by rw [mix]) rfl
  | assignBus b q =>
    obtain ⟨-, lines, mix, -, -⟩ := assignBus_spec s b q
    intro l
    refine (h l).congr (by rw [mix]) (by rw [mix]) (by rw [mix]) ?_
    rw [lines]
    split <;> rfl
  | clearAll =>
    obtain ⟨-, lines, mix, -⟩ := clearAll_spec s
    intro l
    obtain ⟨-, duck, -, level⟩ := (MixEngine.cleaned_spec s.mix fun l => (s.line l).owner.isSome).2.1 l
    rw [mix, lines]
    split
    · rename_i owned
      exact .none (by simp [MixEngine.writeCells, level, owned]) (by simp [MixEngine.writeCells, duck, owned])
    · rename_i free
      refine (h l).congr ?_ ?_ rfl rfl
      · simp [MixEngine.writeCells, level, free]
      · simp [MixEngine.writeCells, duck, free]
  | endWait l p why _ =>
    obtain ⟨⟨-, others⟩, self, -⟩ := State.endWait_spec s l p why
    refine kept _ (by simp) fun k => ?_
    by_cases e : k = l
    · rw [e, self]
    · rw [others k e]
  | talkOn l x _ gain duck =>
    intro k
    rw [talkOn_mix, talkOn_line]
    obtain ⟨-, w2, -, w4, w5⟩ := MixEngine.talkTaken_spec s.mix l x k
    split
    · rename_i e
      refine ⟨fun y hy => ?_, fun none => by cases none⟩
      cases hy
      refine ⟨gain, duck, ?_, ?_, ?_⟩
      · rw [w4, if_pos e, aimed_target]
      · rw [w2, if_pos e]
      · rw [w5, if_pos e]
    · rename_i e
      exact (h k).congr (by simp [w4, e]) (by simp [w2, e]) (by simp [w5, e]) rfl
  | clearTalks sel =>
    obtain ⟨lines, -, mix⟩ := clearTalks_spec s sel
    intro l
    obtain ⟨-, duck, -, level, last⟩ := MixEngine.talkCleared_spec s.mix sel l
    rw [lines, mix]
    dsimp only
    split
    · rename_i cleared
      exact .none (by simp [level, cleared]) (by simp [duck, cleared])
    · rename_i left
      exact (h l).congr (by simp [level, left]) (by simp [duck, left]) (by rw [last]) rfl
  | applyPending p =>
    have spec := applyPending_spec s p
    split at spec
    · rw [spec]
      exact h
    · rename_i g _
      intro l
      rw [spec.1, spec.2.2.1, foldl_actionOnLine_kept]
      exact (h l).actions g
  | connect l => exact kept _ (by simp) fun k => by rw [takeConnect_line]; split <;> simp_all
  | disconnect l => exact kept _ (by simp) fun k => by rw [takeDisconnect_line]; split <;> simp_all
  | attentionRaised l => exact kept _ (by simp) fun k => by rw [takeAttentionRaised_line]; split <;> simp_all
  | attentionDropped l => exact kept _ (by simp) fun k => by rw [takeAttentionDropped_line]; split <;> simp_all
  | debounce rx _ => exact kept _ (by simp) fun k => by rw [State.stepDebounce, (State.mapLines_spec s _).1]

theorem frameMove_talkWritesLaw {s t : State} (m : FrameMove s t) (h : TalkWritesLaw s) : TalkWritesLaw t := by
  have kept : ∀ u : State, u.mix = s.mix → u.lineTable = s.lineTable → TalkWritesLaw u := fun u mix table l => by
    rw [mix, line_congr table]
    exact h l
  cases m with
  | other m =>
    cases m with
    | block m =>
      cases m with
      | notice w e f x => exact h
      | line m => exact lineMove_talk m h
      | load m => exact kept _ m.frame.2.1 m.frame.1
      | player m =>
        obtain ⟨table, mix, -⟩ := m.frame
        intro l
        rw [mix, line_congr table]
        exact h l
      | meter m => exact kept _ m.frame.2.1 m.frame.1
      | clock m => exact kept _ m.frame.2.1 m.frame.1
      | stray p code r _ _ _ => exact kept _ (by simp) (by simp)
      | tick =>
        intro l
        rw [(tickTimers_spec s).1, (State.tickTimers_frame s).1]
        exact h l
    | claimWaits p q l args w _ _ _ =>
      intro k
      have line := (line_congr (s := s.modLine l fun r => { r with waiters := tset r.waiters p (some w) })
        (State.goWorking_frame _ p 0x30 args).1 k).trans ((State.modLine_spec s l _).1 k)
      have talk : (((s.modLine l fun r => { r with waiters := tset r.waiters p (some w) }).goWorking p 0x30 args).line k).talk =
          (s.line k).talk := by
        rw [line]
        split <;> simp_all
      exact TalkFollows.congr (h k) (by simp) (by simp) (by simp) talk
    | reset p =>
      obtain ⟨lines, -, mix⟩ := portCleared_lines s p
      intro l
      obtain ⟨-, duck, -, level, last⟩ :=
        MixEngine.talkCleared_spec s.mix (fun l => (s.line l).talk.any fun t => t.talker == p) l
      rw [lines, mix]
      dsimp only
      split
      · rename_i cleared
        exact TalkFollows.none (by simp [level, cleared]) (by simp [duck, cleared])
      · rename_i left
        exact TalkFollows.congr (h l) (by simp [level, left]) (by simp [duck, left]) (by rw [last]) rfl
    | _ => exact kept _ (by simp) (by simp)
  | ramps =>
    intro l
    refine TalkFollows.congr (h l) ?_ rfl rfl rfl
    simp [MixEngine.stepRamps, step_target]
  | transmit x _ => exact h
  | phase => exact h

/-- Settles O54: every write of the bank is in range, and every move of a talk slot makes the writes of R100. -/
theorem bankAndTalkLawsAreKept : Obligations.BankAndTalkLawsAreKept := by
  intro s t bank talk run
  refine step_keeps (P := fun u => BankLaw u ∧ TalkWritesLaw u) (fun _ _ h => h) (fun _ _ m h => ?_) (fun _ _ h => h)
    (fun _ h => h) (fun u _ => ?_) run ⟨bank, talk⟩
  · exact ⟨frameMove_bankLaw m h.1, frameMove_talkWritesLaw m h.2⟩
  · have bank : BankLaw State.reset := by decide
    have talk : TalkWritesLaw State.reset := by decide
    exact ⟨bank, talk⟩

end Sys2Proof.Proofs.Bank


namespace Sys2Proof.Proofs.Players

open Sys2Proof Sys2Proof.Machine Sys2Proof.Safety Sys2Proof.Proofs.Courses Sys2Proof.Proofs.Effects

/-! ## What the other blocks do to a Cue Player and its group -/

/-- What a move of another block may make of the player of port `p` and its group: nothing, its end with its group (R40, R140),
the application of its group (R38), or the step past an AWAIT (R135). -/
inductive PlayerOutcome (s t : State) (p : Port) : Prop where
  | same (player : t.player p = s.player p) (group : tget t.mix.staging p = tget s.mix.staging p)
  | gone (why : EndReason) (player : t.player p = endedPlayer why (s.player p).addr) (group : tget t.mix.staging p = none)
  | applied (g : List Staged) (staged : tget s.mix.staging p = some g)
      (player : t.player p = { s.player p with state := .stepping, addr := (s.player p).addr + g.length + 1 })
      (group : tget t.mix.staging p = none)
  | told (awaits : ∃ time l c mode, (s.player p).state = .awaiting time l c mode)
      (player : t.player p = pastWait (s.player p)) (group : tget t.mix.staging p = tget s.mix.staging p)

theorem PlayerOutcome.of_blocks {s t : State} (players : t.players = s.players) (staging : t.mix.staging = s.mix.staging)
    (p : Port) : PlayerOutcome s t p := .same (player_congr players p) (by rw [staging])

/-- A discard request ends the players whose groups are lost (R138). -/
theorem PlayerOutcome.of_lost {s t : State} {named : Action → Bool} (lost : GroupsLost s t named) (p : Port) :
    PlayerOutcome s t p := by
  obtain ⟨group, player⟩ := lost p
  cases h : s.groupNames named p
  · exact .same (by simpa [h] using player) (by simpa [h] using group)
  · exact .gone _ (by simpa [h] using player) (by simpa [h] using group)

/-- A condition told to the players that await it (R135). -/
theorem PlayerOutcome.of_awaiting {s t : State} {l : Line} {c : Condition} (told : AwaitingTold s t l c)
    (staging : t.mix.staging = s.mix.staging) (p : Port) : PlayerOutcome s t p := by
  have spec := told p
  cases h : (s.player p).state with
  | awaiting time l' c' mode =>
    rw [h] at spec
    dsimp only at spec
    split at spec
    · exact .told ⟨_, _, _, _, h⟩ spec (by rw [staging])
    · exact .same spec (by rw [staging])
  | _ => exact .same (by simpa [h] using spec) (by rw [staging])

/-- A condition is told to the players of a state with the same players. -/
theorem awaitingTold_of_players {s u : State} (players : u.players = s.players) (l : Line) (c : Condition) :
    AwaitingTold s (u.tellAwaiting l c) l c := fun q => by
  have spec := State.tellAwaiting_spec u l c q
  rwa [player_congr players] at spec

theorem takeConnect_told (s : State) (l : Line) : AwaitingTold s (s.takeConnect l) l .connected :=
  awaitingTold_of_players (by simp) l _

theorem takeDisconnect_told (s : State) (l : Line) : AwaitingTold s (s.takeDisconnect l) l .disconnected := by
  unfold State.takeDisconnect
  dsimp only
  refine awaitingTold_of_players ?_ l _
  split <;> simp

/-- The latch is told where it changes (R57, R135). -/
theorem takeAttentionRaised_told (s : State) (l : Line) :
    if (s.line l).attention = true then (s.takeAttentionRaised l).players = s.players
    else AwaitingTold s (s.takeAttentionRaised l) l .attentionLatched := by
  unfold State.takeAttentionRaised
  dsimp only
  split
  · simp
  · exact awaitingTold_of_players (by simp) l _

theorem lineMove_player {s t : State} (m : LineMove s t) (p : Port) : PlayerOutcome s t p := by
  cases m with
  | act q a _ _ => exact .of_blocks (by simp) (by rw [performAction_mix, actionOnMix_staging]) p
  | changeOwner l prev new actor _ _ =>
    exact .of_lost (State.changeOwner_spec s l prev new actor).1.2.2.2.2.2.2 p
  | assignBus b q => exact .of_lost (assignBus_spec s b q).2.2.2.2 p
  | clearAll =>
    obtain ⟨player, group⟩ := (clearAll_spec s).2.2.2.1 p
    by_cases idle : (s.player p).state = .idle
    · exact .same (by simpa [idle] using player) (by simpa [idle] using group)
    · exact .gone _ (by simpa [idle] using player) (by simpa [idle] using group)
  | talkOn l x _ _ _ => exact .of_blocks (by simp) (by rw [talkOn_mix]; rfl) p
  | clearTalks sel => exact .of_blocks (by simp) (by rw [(clearTalks_spec s sel).2.2]; rfl) p
  | applyPending q =>
    have spec := applyPending_spec s q
    split at spec
    · rw [spec]
      exact .of_blocks rfl rfl p
    · rename_i g staged
      obtain ⟨-, -, mix, player⟩ := spec
      have group : tget (s.applyPending q).mix.staging p = if p = q then none else tget s.mix.staging p := by
        rw [mix]
        exact tget_tset _ _ _ _
      by_cases e : p = q
      · subst e
        exact .applied g staged (by simpa using player p) (by simpa using group)
      · exact .same (by simpa [e] using player p) (by simpa [e] using group)
  | connect l => exact .of_awaiting (takeConnect_told s l) (by simp) p
  | disconnect l => exact .of_awaiting (takeDisconnect_told s l) (by simp) p
  | attentionRaised l =>
    have told := takeAttentionRaised_told s l
    split at told
    · exact .of_blocks told (by simp) p
    · exact .of_awaiting told (by simp) p
  | _ => exact .of_blocks (by simp) (by simp [MixEngine.writePark]) p

theorem portCleared_player (s : State) (q p : Port) : PlayerOutcome s (portCleared s q) p := by
  obtain ⟨player, group⟩ := portCleared_players s q p
  by_cases h : p = q ∧ (s.player p).state ≠ .idle
  · exact .gone _ (by rwa [if_pos h] at player) (by rwa [if_pos h] at group)
  · exact .same (by rwa [if_neg h] at player) (by rwa [if_neg h] at group)

/-! ## A player is PENDING exactly while its group is staged -/

/-- A player is PENDING exactly while its group is staged (R36). -/
def PendingLaw (s : State) : Prop := ∀ p, (s.player p).state = .pending ↔ (tget s.mix.staging p).isSome = true

theorem pastWait_not_pending (x : Player) : (pastWait x).state ≠ .pending := by
  unfold pastWait endedPlayer
  split <;> simp

theorem PlayerOutcome.pending {s t : State} {p : Port} (o : PlayerOutcome s t p)
    (h : (s.player p).state = .pending ↔ (tget s.mix.staging p).isSome = true) :
    (t.player p).state = .pending ↔ (tget t.mix.staging p).isSome = true := by
  cases o with
  | same player group => rw [player, group]; exact h
  | gone why player group => simp [player, group, endedPlayer]
  | applied g staged player group => simp [player, group]
  | told awaits player group =>
    obtain ⟨time, l, c, mode, awaits⟩ := awaits
    rw [player, group, ← h]
    simp [pastWait_not_pending, awaits]

theorem playerMove_pending {s t : State} (m : PlayerMove s t) (h : PendingLaw s) : PendingLaw t := by
  intro q
  have old := h q
  cases m with
  | run p a _ idle _ =>
    rw [State.setPlayer_spec]
    split
    · rename_i e
      subst e
      simpa [idle] using old
    · exact old
  | ends p why a _ =>
    obtain ⟨player, -, gone, others⟩ := State.endPlayer_spec s p why a
    rw [player]
    by_cases e : q = p
    · subst e
      simp [gone, endedPlayer]
    · rw [if_neg e, others q e]
      exact old
  | walk x walks =>
    show (tget x q).state = .pending ↔ (tget s.mix.staging q).isSome = true
    rcases walks q with same | ⟨-, before, after, -⟩
    · rw [same]
      exact old
    · simpa [before, after] using old
  | pause p b _ stepping _ _ _ _ =>
    rw [State.setPlayer_spec]
    split
    · rename_i e
      subst e
      simpa [stepping] using old
    · exact old
  | stage p g _ _ _ _ _ =>
    show ((s.setPlayer p { s.player p with state := .pending }).player q).state = .pending ↔
      (tget (tset s.mix.staging p (some g)) q).isSome = true
    rw [State.setPlayer_spec, tget_tset]
    split
    · simp
    · exact old

/-- A tick makes no player PENDING, and leaves none that is. -/
theorem tick_pending (x : PlayerState) : x.tick = .pending ↔ x = .pending := by cases x <;> simp [PlayerState.tick]

theorem PendingLaw.congr {s t : State} (h : PendingLaw s) (players : t.players = s.players)
    (staging : t.mix.staging = s.mix.staging) : PendingLaw t := fun p => by
  rw [player_congr players, staging]
  exact h p

theorem frameMove_pendingLaw {s t : State} (m : FrameMove s t) (h : PendingLaw s) : PendingLaw t := by
  cases m with
  | other m =>
    cases m with
    | block m =>
      cases m with
      | notice w e f x => exact h
      | line m => exact fun p => (lineMove_player m p).pending (h p)
      | load m => exact h.congr m.frame.2.2.1 (by rw [m.frame.2.1])
      | player m => exact playerMove_pending m h
      | meter m => exact h.congr m.frame.2.2.2.1 (by rw [m.frame.2.1])
      | clock m => exact h.congr m.frame.2.2.2.1 (by rw [m.frame.2.1])
      | stray p code r _ _ _ => exact h.congr (by simp) (by simp)
      | tick =>
        intro p
        rw [(tickTimers_spec s).2.2.2.2.1 p, tick_pending, (State.tickTimers_frame s).1]
        exact h p
    | reset q => exact fun p => (portCleared_player s q p).pending (h p)
    | _ => exact h.congr (by simp) (by simp)
  | ramps => exact h
  | transmit x _ => exact h
  | phase => exact h

/-- The release of FREEZE makes no player PENDING (R139). -/
theorem tellPaused_pendingLaw {s : State} (h : PendingLaw s) : PendingLaw s.tellPaused := fun p => by
  have old := h p
  rw [(State.tellPaused_spec s).1 p]
  split
  · rename_i paused
    simpa [paused] using old
  · exact old

end Sys2Proof.Proofs.Players


namespace Sys2Proof.Proofs.Ownership

open Sys2Proof Sys2Proof.Machine Sys2Proof.Safety Sys2Proof.Proofs.Courses Sys2Proof.Proofs.Effects
  Sys2Proof.Proofs.Bank Sys2Proof.Proofs.Players

/-! ## The three clauses of the law -/

/-- The record law of R49, R78 and R99 for a line record, with the bus owners it is read against. -/
def RecordLaw (own : Bus → Port) (r : LineRec) : Prop :=
  (r.status = .free ↔ r.owner = none) ∧ (r.status = .placed ↔ r.bus.isSome = true) ∧
  (∀ b ∈ r.bus, r.owner = some (own b)) ∧
  (r.status = .free → r.hold = none ∧ r.tone = false ∧ r.talk = none ∧ ∀ q, tget r.waiters q = none) ∧
  (∀ q ∈ r.owner, tget r.waiters q = none) ∧ (∀ t ∈ r.talk, t.talker = 0 ∨ r.owner = some t.talker)

/-- A line's cell has a non-zero target only on a bus its owner owns (R35). -/
def CellsOwned (s : State) : Prop :=
  ∀ (l : Line) b, (tget (tget s.mix.cells (Line.contributor l)) b).target ≠ 0 → (s.line l).owner = some (s.busOwner b)

/-- A pending group names only what its port owns (R39, R40). -/
def GroupsOwned (s : State) : Prop := ∀ p, ∀ g ∈ tget s.mix.staging p, ∀ a ∈ g, Owns s p a.action

theorem ownershipLaw_iff (s : State) :
    OwnershipLaw s ↔ (∀ l, RecordLaw s.busOwner (s.line l)) ∧ CellsOwned s ∧ GroupsOwned s := by
  have groups : (∀ p, ∀ g ∈ tget s.mix.staging p, ∀ a ∈ g, s.actionDenied p a.action = none) ↔ GroupsOwned s := by
    simp only [GroupsOwned, State.actionDenied_eq_none]
  exact and_congr Iff.rfl (and_congr Iff.rfl groups)

/-! ## Owners under a change -/

/-- What an action needs is owned where the owners of what it names are as before. -/
theorem Owns.congr {s t : State} {p : Port} {a : Action}
    (lines : ∀ l, a.namesLine l = true → (t.line l).owner = (s.line l).owner)
    (buses : ∀ b, a.namesBus b = true → t.busOwner b = s.busOwner b) (h : Owns s p a) : Owns t p a := by
  cases a with
  | cell c b v =>
    refine ⟨(buses b (by simp [Action.namesBus])).trans h.1, fun l e => ?_⟩
    rw [lines l (by simp [Action.namesLine, e])]
    exact h.2 l e
  | trim l v => exact (lines l (by simp [Action.namesLine])).trans h
  | place l bus hold =>
    refine ⟨(lines l (by simp [Action.namesLine])).trans h.1, fun b e => ?_⟩
    rw [buses b (by simp [Action.namesBus, e])]
    exact h.2 b e
  | tone l on => exact (lines l (by simp [Action.namesLine])).trans h

/-- An action that names a line needs that line's owner. -/
theorem Owns.line {s : State} {p : Port} {a : Action} {l : Line} (h : Owns s p a) (names : a.namesLine l = true) :
    (s.line l).owner = some p := by
  cases a with
  | cell c b v => exact h.2 l (contributor_of_line? (by simpa [Action.namesLine] using names))
  | trim k v =>
    obtain rfl : k = l := by simpa [Action.namesLine] using names
    exact h
  | place k bus hold =>
    obtain rfl : k = l := by simpa [Action.namesLine] using names
    exact h.1
  | tone k on =>
    obtain rfl : k = l := by simpa [Action.namesLine] using names
    exact h

/-- A group that stays after a discard names nothing of what was named. -/
theorem not_named_of_kept {s t : State} {named : Action → Bool} (lost : GroupsLost s t named) {p : Port} {g : List Staged}
    (h : g ∈ tget t.mix.staging p) : g ∈ tget s.mix.staging p ∧ ∀ a ∈ g, named a.action = false := by
  rw [(lost p).1] at h
  split at h
  · cases h
  · rename_i kept
    refine ⟨h, fun a ha => ?_⟩
    have staged : tget s.mix.staging p = some g := h
    simp only [State.groupNames, staged, List.any_eq_true, not_exists, not_and, Bool.not_eq_true] at kept
    exact kept a ha

/-- The owners of lines and buses are as before. -/
def SameOwners (s t : State) : Prop :=
  (∀ l, (t.line l).owner = (s.line l).owner) ∧ ∀ b, t.busOwner b = s.busOwner b

theorem SameOwners.owns {s t : State} (o : SameOwners s t) {p : Port} {a : Action} (h : Owns s p a) : Owns t p a :=
  Owns.congr (fun l _ => o.1 l) (fun b _ => o.2 b) h

/-- Where no owner changes, the law is kept by records that keep theirs, cells that stay or fall to 0 and no new groups. -/
theorem OwnershipLaw.of_sameOwners {s t : State} (h : OwnershipLaw s) (o : SameOwners s t)
    (record : ∀ l, RecordLaw s.busOwner (s.line l) → RecordLaw s.busOwner (t.line l))
    (cells : ∀ l b, (tget (tget t.mix.cells (Line.contributor l)) b).target ≠ 0 →
      (tget (tget s.mix.cells (Line.contributor l)) b).target ≠ 0 ∨ (s.line l).owner = some (s.busOwner b))
    (groups : NoNewGroups s t) : OwnershipLaw t := by
  rw [ownershipLaw_iff] at h ⊢
  obtain ⟨records, owned, staged⟩ := h
  have buses : t.busOwner = s.busOwner := funext o.2
  refine ⟨fun l => buses ▸ record l (records l), fun l b nonzero => ?_, fun p g hg a ha => ?_⟩
  · rw [o.1, o.2]
    exact (cells l b nonzero).elim (owned l b) id
  · refine o.owns (staged p g ?_ a ha)
    rcases groups p with same | none
    · rwa [same] at hg
    · rw [none] at hg
      cases hg

/-- The law reads lines, bus owners, cells and groups. -/
theorem OwnershipLaw.congr {s t : State} (h : OwnershipLaw s) (table : t.lineTable = s.lineTable)
    (cells : t.mix.cells = s.mix.cells) (groups : NoNewGroups s t) : OwnershipLaw t := by
  have line := line_congr table
  refine OwnershipLaw.of_sameOwners h ⟨fun l => by rw [line], busOwner_congr (by rw [table])⟩ (fun l r => line l ▸ r)
    (fun l b n => ?_) groups
  rw [cells] at n
  exact .inl n

/-! ## Records under a change -/

theorem RecordLaw.placedOn {own : Bus → Port} {r : LineRec} (h : RecordLaw own r) {p : Port} (owner : r.owner = some p)
    {bus : Option Bus} (hold : Option Source) (buses : ∀ b, bus = some b → own b = p) :
    RecordLaw own (r.placedOn bus hold) := by
  obtain ⟨-, -, -, -, waiters, talk⟩ := h
  unfold LineRec.placedOn
  cases bus with
  | none => simp_all [RecordLaw]
  | some b =>
    have := buses b rfl
    simp_all [RecordLaw]

theorem RecordLaw.withTone {own : Bus → Port} {r : LineRec} (h : RecordLaw own r) {p : Port} (owner : r.owner = some p)
    (on : Bool) : RecordLaw own { r with tone := on } := by
  obtain ⟨free, placed, buses, -, waiters, talk⟩ := h
  have held : r.status ≠ .free := fun e => by simp [free.1 e] at owner
  exact ⟨free, placed, buses, fun e => absurd e held, waiters, talk⟩

/-- An action on what its port owns keeps the record law of every line (R63, R67). -/
theorem RecordLaw.action {s : State} {p : Port} {a : Action} (owns : Owns s p a) {k : Line} {r : LineRec}
    (owner : r.owner = (s.line k).owner) (h : RecordLaw s.busOwner r) : RecordLaw s.busOwner (actionOnLine k r a) := by
  cases a with
  | place l bus hold =>
    show RecordLaw s.busOwner (if k = l then r.placedOn bus hold else r)
    split
    · rename_i e
      subst e
      exact h.placedOn (owner.trans owns.1) hold owns.2
    · exact h
  | tone l on =>
    show RecordLaw s.busOwner (if k = l then { r with tone := on } else r)
    split
    · rename_i e
      subst e
      exact h.withTone (owner.trans owns) on
    · exact h
  | cell c b v => exact h
  | trim l v => exact h

/-- The record of a line whose owner has just changed (R75, R96). -/
theorem RecordLaw.cleaned {own : Bus → Port} {x : LineRec} (new : Option Port)
    (status : x.status = if new = none then .free else .held) (owner : x.owner = new) (bus : x.bus = none)
    (hold : x.hold = none) (tone : x.tone = false) (talk : x.talk = none)
    (waiters : ∀ q, new = none ∨ new = some q → tget x.waiters q = none) : RecordLaw own x := by
  rw [RecordLaw, status, owner, bus, hold, tone, talk]
  cases new with
  | none => simpa using waiters
  | some p => simpa using waiters p

/-- A talk slot taken by a port that may (R99, R107). -/
theorem RecordLaw.talks {s : State} {l : Line} {x : TalkSlot} (h : RecordLaw s.busOwner (s.line l))
    (passes : s.talkDenied x.talker l = none) : RecordLaw s.busOwner { s.line l with talk := some x } := by
  obtain ⟨h1, h2, h3, h4, h5, -⟩ := h
  unfold State.talkDenied at passes
  split at passes
  · cases passes
  · rename_i o owner
    split at passes
    · cases passes
    · rename_i may
      have held : (s.line l).status ≠ .free := fun e => by simp [h1.1 e] at owner
      refine ⟨h1, h2, h3, fun e => absurd e held, h5, fun t ht => ?_⟩
      obtain rfl : x = t := by simpa using ht
      by_cases console : x.talker = 0
      · exact .inl console
      · have own : o = x.talker := by
          by_contra other
          exact may ⟨other, console⟩
        exact .inr (owner.trans (by rw [own]))

theorem RecordLaw.granted {own : Bus → Port} {r : LineRec} (h : RecordLaw own r) (free : r.owner = none) (p : Port) :
    RecordLaw own (r.granted p) := by
  obtain ⟨status, placed, -, clear, -, -⟩ := h
  have free := status.2 free
  obtain ⟨-, -, talk, waiters⟩ := clear free
  have unplaced : r.bus = none := by
    rw [free] at placed
    simpa using placed
  simp_all [RecordLaw, LineRec.granted]

/-- A change of fields that the law does not read, and of waits that leaves the empty ones. -/
theorem RecordLaw.of_fields {own : Bus → Port} {r x : LineRec} (h : RecordLaw own r) (status : x.status = r.status)
    (owner : x.owner = r.owner) (bus : x.bus = r.bus) (hold : x.hold = r.hold) (tone : x.tone = r.tone)
    (talk : x.talk = r.talk ∨ x.talk = none) (waiters : ∀ q, tget r.waiters q = none → tget x.waiters q = none) :
    RecordLaw own x := by
  obtain ⟨h1, h2, h3, h4, h5, h6⟩ := h
  rw [RecordLaw, status, owner, bus, hold, tone]
  refine ⟨h1, h2, h3, fun free => ?_, fun q hq => waiters q (h5 q hq), fun t ht => ?_⟩
  · obtain ⟨hold, tone, slot, waits⟩ := h4 free
    refine ⟨hold, tone, ?_, fun q => waiters q (waits q)⟩
    rcases talk with same | none
    · rw [same, slot]
    · exact none
  · rcases talk with same | none
    · exact h6 t (same ▸ ht)
    · rw [none] at ht
      cases ht

/-! ## The law under moves -/

/-- The cells of lines after an action on what its port owns: as before, or owned as R35 asks. -/
theorem actionOnMix_cells {s : State} {p : Port} {a : Action} (owns : Owns s p a) (m : MixEngine) (l : Line) (b : Bus)
    (h : (tget (tget (actionOnMix m a).cells (Line.contributor l)) b).target ≠ 0) :
    (tget (tget m.cells (Line.contributor l)) b).target ≠ 0 ∨ (s.line l).owner = some (s.busOwner b) := by
  cases a with
  | cell c k v =>
    unfold actionOnMix at h
    dsimp only at h
    rw [(MixEngine.writeCells_spec _ _ _).2] at h
    split at h
    · rename_i sel
      simp only [Bool.and_eq_true, beq_iff_eq] at sel
      obtain ⟨e, rfl⟩ := sel
      exact .inr ((owns.2 l e.symm).trans (by rw [owns.1]))
    · exact .inl h
  | _ => exact .inl h

/-- The lines and cells of lines after a group's actions on what its port owns (R38). -/
theorem foldl_actions_owned {s : State} {p : Port} (g : List Staged) (owns : ∀ a ∈ g, Owns s p a.action) :
    (∀ (k : Line) (r : LineRec), r.owner = (s.line k).owner → RecordLaw s.busOwner r →
      RecordLaw s.busOwner (g.foldl (fun r a => actionOnLine k r a.action) r)) ∧
    ∀ (m : MixEngine) (l : Line) (b : Bus),
      (tget (tget (g.foldl (fun m a => actionOnMix m a.action) m).cells (Line.contributor l)) b).target ≠ 0 →
      (tget (tget m.cells (Line.contributor l)) b).target ≠ 0 ∨ (s.line l).owner = some (s.busOwner b) := by
  induction g with
  | nil => exact ⟨fun _ _ _ h => h, fun _ _ _ h => .inl h⟩
  | cons a rest ih =>
    obtain ⟨lines, cells⟩ := ih fun x hx => owns x (List.mem_cons_of_mem _ hx)
    have owned := owns a List.mem_cons_self
    refine ⟨fun k r owner law => lines k _ ?_ (law.action owned owner), fun m l b h => ?_⟩
    · show (actionOnLine k r a.action).owner = _
      rw [Outputs.actionOnLine_kept]
      exact owner
    · exact (cells _ l b h).elim (actionOnMix_cells owned m l b) .inr

theorem changeOwner_law {s : State} (h : OwnershipLaw s) (l : Line) (prev : Port) (new : Option Port) (actor : Port) :
    OwnershipLaw (s.changeOwner l prev new actor) := by
  obtain ⟨⟨self, waiters, ⟨table, others⟩, -, cells, -, lost⟩, -⟩ := State.changeOwner_spec s l prev new actor
  rw [ownershipLaw_iff] at h ⊢
  obtain ⟨records, owned, staged⟩ := h
  have buses : (s.changeOwner l prev new actor).busOwner = s.busOwner := funext (busOwner_congr (by rw [table]))
  refine ⟨fun k => ?_, fun k b nonzero => ?_, fun p g hg a ha => ?_⟩
  · by_cases e : k = l
    · rw [e]
      refine .cleaned new (congrArg LineRec.status self) (congrArg LineRec.owner self) (congrArg LineRec.bus self)
        (congrArg LineRec.hold self) (congrArg LineRec.tone self) (congrArg LineRec.talk self) fun q hq => ?_
      rw [waiters, if_pos hq]
    · rw [buses, others k e]
      exact records k
  · rw [cells] at nonzero
    split at nonzero
    · exact absurd rfl nonzero
    · rename_i other
      have e : k ≠ l := fun e => other (by rw [e])
      rw [buses, others k e]
      exact owned k b nonzero
  · obtain ⟨old, unnamed⟩ := not_named_of_kept lost hg
    refine Owns.congr (fun k names => ?_) (fun b _ => by rw [buses]) (staged p g old a ha)
    rw [others k fun e => by simp [e, unnamed a ha] at names]

theorem grant_law {s : State} (h : OwnershipLaw s) {l : Line} (p : Port) (free : (s.line l).owner = none) :
    OwnershipLaw (s.modLine l fun r => r.granted p) := by
  obtain ⟨lines, table⟩ := State.modLine_spec s l fun r => r.granted p
  rw [ownershipLaw_iff] at h ⊢
  obtain ⟨records, owned, staged⟩ := h
  have buses : (s.modLine l fun r => r.granted p).busOwner = s.busOwner := funext (busOwner_congr (by rw [table]))
  have others : ∀ k, k ≠ l → ((s.modLine l fun r => r.granted p).line k) = s.line k := fun k e => by rw [lines, if_neg e]
  refine ⟨fun k => ?_, fun k b nonzero => ?_, fun q g hg a ha => ?_⟩
  · rw [buses]
    by_cases e : k = l
    · subst e
      rw [lines, if_pos rfl]
      exact (records k).granted free p
    · rw [others k e]
      exact records k
  · have old := owned k b nonzero
    have e : k ≠ l := fun e => by simp [e, free] at old
    rw [buses, others k e]
    exact old
  · have old := staged q g hg a ha
    refine Owns.congr (fun k names => ?_) (fun b _ => by rw [buses]) old
    rw [others k fun e => by simpa [e, free] using Owns.line old names]

theorem assignBus_law {s : State} (h : OwnershipLaw s) (b : Bus) (q : Port) : OwnershipLaw (s.assignBus b q) := by
  obtain ⟨buses, lines, -, cells, lost⟩ := assignBus_spec s b q
  rw [ownershipLaw_iff] at h ⊢
  obtain ⟨records, owned, staged⟩ := h
  have owner : ∀ l, ((s.assignBus b q).line l).owner = (s.line l).owner := fun l => by
    rw [lines]
    split <;> rfl
  refine ⟨fun l => ?_, fun l k nonzero => ?_, fun p g hg a ha => ?_⟩
  · obtain ⟨h1, h2, h3, h4, h5, h6⟩ := records l
    rw [lines]
    split
    · rename_i returned
      refine ⟨?_, by simp, by simp, by simp, h5, h6⟩
      simpa [returned.1] using h1
    · rename_i stays
      refine ⟨h1, h2, fun k hk => ?_, h4, h5, h6⟩
      rw [buses]
      split
      · rename_i e
        have placed : (s.line l).status = .placed := h2.2 (by simp [Option.mem_def.1 hk])
        by_contra other
        exact stays ⟨placed, e ▸ hk, other⟩
      · exact h3 k hk
  · rw [cells] at nonzero
    rw [owner, buses]
    by_cases e : k = b
    · by_contra other
      simp [e] at nonzero other
      simp [other] at nonzero
    · rw [if_neg fun c => e c.1] at nonzero
      rw [if_neg e]
      exact owned l k nonzero
  · obtain ⟨old, unnamed⟩ := not_named_of_kept lost hg
    refine Owns.congr (fun k _ => owner k) (fun k names => ?_) (staged p g old a ha)
    rw [buses, if_neg fun e => by simp [e, unnamed a ha] at names]

theorem clearAll_law {s : State} (h : OwnershipLaw s) (pending : PendingLaw s) : OwnershipLaw s.clearAll := by
  obtain ⟨table, lines, mix, players, -⟩ := clearAll_spec s
  rw [ownershipLaw_iff] at h ⊢
  have buses : s.clearAll.busOwner = s.busOwner := funext (busOwner_congr table)
  have nothing : ∀ p, tget s.clearAll.mix.staging p = none := fun p => by
    rw [(players p).2]
    split
    · rename_i idle
      simpa [idle] using pending p
    · rfl
  refine ⟨fun l => ?_, fun l b nonzero => ?_, fun p g hg a ha => ?_⟩
  · rw [lines, buses]
    split
    · exact .cleaned none rfl rfl rfl rfl rfl rfl fun q _ => tget_tall _ _
    · refine (h.1 l).of_fields (x := { s.line l with waiters := tall none }) rfl rfl rfl rfl rfl (.inl rfl) fun q _ => ?_
      exact tget_tall _ _
  · rw [mix] at nonzero
    simp [(MixEngine.writeCells_spec _ _ _).2, Outputs.aimed_target] at nonzero
  · rw [nothing] at hg
    cases hg

/-- The cells of lines are as before in a bank that differs elsewhere. -/
theorem cells_kept {m n : MixEngine} (h : n.cells = m.cells) {prop : Line → Bus → Prop} (l : Line) (b : Bus)
    (nonzero : (tget (tget n.cells (Line.contributor l)) b).target ≠ 0) :
    (tget (tget m.cells (Line.contributor l)) b).target ≠ 0 ∨ prop l b := .inl (by rwa [h] at nonzero)

/-- A change of one line's fields that the law does not read. -/
theorem OwnershipLaw.of_lines {s t : State} (h : OwnershipLaw s) (buses : t.lineTable.busOwner = s.lineTable.busOwner)
    (cells : t.mix.cells = s.mix.cells) (groups : NoNewGroups s t)
    (same : ∀ k, t.line k = { s.line k with
      connected := (t.line k).connected, attention := (t.line k).attention, talk := (t.line k).talk,
      waiters := (t.line k).waiters, connCount := (t.line k).connCount, attnRaised := (t.line k).attnRaised,
      attnCount := (t.line k).attnCount })
    (talk : ∀ k, (t.line k).talk = (s.line k).talk ∨ (t.line k).talk = none)
    (waiters : ∀ k q, tget (s.line k).waiters q = none → tget (t.line k).waiters q = none) : OwnershipLaw t :=
  OwnershipLaw.of_sameOwners h ⟨fun k => (congrArg LineRec.owner (same k) :), busOwner_congr buses⟩
    (fun k r => r.of_fields (congrArg LineRec.status (same k) :) (congrArg LineRec.owner (same k) :)
      (congrArg LineRec.bus (same k) :) (congrArg LineRec.hold (same k) :) (congrArg LineRec.tone (same k) :) (talk k) (waiters k))
    (cells_kept cells) groups

/-- The debounced events and the debounce itself write fields that the law does not read (R52 to R58). -/
theorem signals_law {s t : State} (h : OwnershipLaw s) (m : LineMove s t) (buses : t.lineTable.busOwner = s.lineTable.busOwner)
    (mix : t.mix = s.mix)
    (same : ∀ k, t.line k = { s.line k with
      connected := (t.line k).connected, attention := (t.line k).attention, connCount := (t.line k).connCount,
      attnRaised := (t.line k).attnRaised, attnCount := (t.line k).attnCount }) : OwnershipLaw t :=
  OwnershipLaw.of_lines h buses (by rw [mix]) (lineMove_noNewGroups m)
    (fun k => by rw [same k]) (fun k => .inl (congrArg LineRec.talk (same k) :))
    (fun k q none => by rwa [(congrArg LineRec.waiters (same k) :)])

theorem lineMove_law {s t : State} (m : LineMove s t) (h : OwnershipLaw s) (pending : PendingLaw s) : OwnershipLaw t := by
  have groups := lineMove_noNewGroups m
  cases m with
  | act p a owns _ =>
    refine OwnershipLaw.of_sameOwners h ⟨fun l => ?_, busOwner_congr (performAction_busOwner s a)⟩ (fun l law => ?_)
      (fun l b nonzero => ?_) groups
    · rw [performAction_line, Outputs.actionOnLine_kept]
    · rw [performAction_line]
      exact law.action owns rfl
    · rw [performAction_mix] at nonzero
      exact actionOnMix_cells owns _ l b nonzero
  | park x v _ => exact OwnershipLaw.congr h rfl rfl groups
  | attention l =>
    exact signals_law h (.attention s l) (by simp [State.setAttention, State.modLine]) (by simp) fun k => by
      rw [(State.setAttention_spec s l false).1]
      split <;> simp_all
  | grant l p free => exact grant_law h p free
  | changeOwner l prev new actor _ _ => exact changeOwner_law h l prev new actor
  | assignBus b q => exact assignBus_law h b q
  | clearAll => exact clearAll_law h pending
  | endWait l p why _ =>
    obtain ⟨⟨table, others⟩, self, -⟩ := State.endWait_spec s l p why
    have line : ∀ k, (s.endWait l p why).line k =
        if k = l then { s.line l with waiters := tset (s.line l).waiters p none } else s.line k := fun k => by
      split
      · rename_i e
        rw [e, self]
      · rename_i e
        exact others k e
    refine OwnershipLaw.of_lines h (by rw [table]) (by simp) groups (fun k => ?_) (fun k => .inl ?_) (fun k q none => ?_)
    · rw [line]
      split <;> simp_all
    · rw [line]
      split <;> simp_all
    · rw [line]
      split
      · rename_i e
        rw [tget_tset, ← e, none]
        split <;> rfl
      · exact none
  | talkOn l x denied _ _ =>
    refine OwnershipLaw.of_sameOwners h ⟨fun k => ?_, busOwner_congr (talkOn_busOwner s l x)⟩ (fun k law => ?_)
      (fun k b nonzero => ?_) groups
    · rw [talkOn_line]
      split <;> simp_all
    · rw [talkOn_line]
      split
      · rename_i e
        subst e
        exact law.talks denied
      · exact law
    · rw [talkOn_mix] at nonzero
      exact .inl nonzero
  | clearTalks sel =>
    obtain ⟨lines, buses, mix⟩ := clearTalks_spec s sel
    refine OwnershipLaw.of_lines h buses (by rw [mix]; rfl) groups (fun k => by rw [lines]) (fun k => ?_) (fun k q none => ?_)
    · rw [lines]
      cases sel k
      · exact .inl rfl
      · exact .inr rfl
    · rw [lines]
      exact none
  | applyPending p =>
    have spec := applyPending_spec s p
    split at spec
    · rw [spec]
      exact h
    · rename_i g staged
      obtain ⟨lines, buses, mix, -⟩ := spec
      obtain ⟨records, cells⟩ := foldl_actions_owned g (((ownershipLaw_iff s).1 h).2.2 p g staged)
      refine OwnershipLaw.of_sameOwners h ⟨fun l => ?_, busOwner_congr buses⟩ (fun l law => ?_) (fun l b nonzero => ?_) groups
      · rw [lines, Outputs.foldl_actionOnLine_kept]
      · rw [lines]
        exact records l _ rfl law
      · rw [mix] at nonzero
        exact cells s.mix l b nonzero
  | connect l =>
    exact signals_law h (.connect s l) (by simp [State.takeConnect, State.modLine]) (by simp) fun k => by
      rw [takeConnect_line]
      split <;> simp_all
  | disconnect l =>
    refine signals_law h (.disconnect s l) ?_ (by simp) fun k => ?_
    · unfold State.takeDisconnect
      dsimp only
      split <;> simp [State.modLine]
    · rw [takeDisconnect_line]
      split <;> simp_all
  | attentionRaised l =>
    refine signals_law h (.attentionRaised s l) ?_ (by simp) fun k => ?_
    · unfold State.takeAttentionRaised
      dsimp only
      split <;> simp [State.modLine, State.setAttention]
    · rw [takeAttentionRaised_line]
      split <;> simp_all
  | attentionDropped l =>
    refine signals_law h (.attentionDropped s l) (by simp [State.takeAttentionDropped, State.modLine]) (by simp) fun k => ?_
    rw [takeAttentionDropped_line]
    split <;> simp_all
  | debounce rx below =>
    refine signals_law h (.debounce s rx below) (by simp [State.stepDebounce, State.mapLines]) (by simp) fun k => ?_
    rw [State.stepDebounce, (State.mapLines_spec s _).1]

theorem claimWaits_law {s : State} (h : OwnershipLaw s) {p q : Port} {l : Line} (args : List Byte) (w : TimeLeft)
    (owner : (s.line l).owner = some q) (other : q ≠ p) :
    OwnershipLaw ((s.modLine l fun r => { r with waiters := tset r.waiters p (some w) }).goWorking p 0x30 args) := by
  obtain ⟨lines, table⟩ := State.modLine_spec s l fun r => { r with waiters := tset r.waiters p (some w) }
  have law : OwnershipLaw (s.modLine l fun r => { r with waiters := tset r.waiters p (some w) }) := by
    refine OwnershipLaw.of_sameOwners h ⟨fun k => ?_, busOwner_congr (by rw [table])⟩ (fun k law => ?_)
      (cells_kept (by simp)) (.of_staging (by simp))
    · rw [lines]
      split <;> simp_all
    · rw [lines]
      split
      · rename_i e
        subst e
        obtain ⟨h1, h2, h3, h4, h5, h6⟩ := law
        have held : (s.line k).status ≠ .free := fun e => by simp [h1.1 e] at owner
        refine ⟨h1, h2, h3, fun e => absurd e held, fun x hx => ?_, h6⟩
        have e : x = q := by simpa [owner] using hx.symm
        rw [e, tget_tset_of_ne _ _ other]
        exact h5 q owner
      · exact law
  exact OwnershipLaw.congr law (by simp) (by simp) (.of_staging (by simp))

theorem portCleared_law {s : State} (h : OwnershipLaw s) (p : Port) : OwnershipLaw (portCleared s p) := by
  obtain ⟨lines, buses, mix⟩ := portCleared_lines s p
  refine OwnershipLaw.of_lines h buses (by rw [mix]; rfl) (portCleared_noNewGroups s p) (fun k => by rw [lines]) (fun k => ?_)
    (fun k q none => ?_)
  · rw [lines]
    dsimp only
    split
    · exact .inr rfl
    · exact .inl rfl
  · rw [lines]
    simp [tget_tset, none]

theorem stage_law {s t : State} (h : OwnershipLaw s) (m : PlayerMove s t) : OwnershipLaw t := by
  obtain ⟨table, mix, -⟩ := m.frame
  have cells : t.mix.cells = s.mix.cells := by rw [mix]
  rcases playerMove_noNewGroups m with groups | ⟨p, g, -, actions, staging⟩
  · exact OwnershipLaw.congr h table cells groups
  · have line := line_congr table
    have same : SameOwners s t := ⟨fun l => by rw [line], busOwner_congr (by rw [table])⟩
    rw [ownershipLaw_iff] at h ⊢
    obtain ⟨records, owned, staged⟩ := h
    refine ⟨fun l => ?_, fun l b nonzero => ?_, fun q x hx a ha => same.owns ?_⟩
    · rw [line, show t.busOwner = s.busOwner from funext same.2]
      exact records l
    · rw [line, same.2]
      exact owned l b (by rwa [cells] at nonzero)
    · rw [staging, tget_tset] at hx
      split at hx
      · rename_i e
        cases hx
        exact e ▸ (actions a ha).1
      · exact staged q x hx a ha

theorem frameMove_ownershipLaw {s t : State} (m : FrameMove s t) (h : OwnershipLaw s) (pending : PendingLaw s) :
    OwnershipLaw t := by
  have kept : ∀ u : State, u.lineTable = s.lineTable → u.mix = s.mix → OwnershipLaw u := fun u table mix =>
    OwnershipLaw.congr h table (by rw [mix]) (.of_staging (by rw [mix]))
  cases m with
  | other m =>
    cases m with
    | block m =>
      cases m with
      | notice w e f x => exact h
      | line m => exact lineMove_law m h pending
      | load m => exact kept _ m.frame.1 m.frame.2.1
      | player m => exact stage_law h m
      | meter m => exact kept _ m.frame.1 m.frame.2.1
      | clock m => exact kept _ m.frame.1 m.frame.2.1
      | stray p code r _ _ _ => exact kept _ (by simp) (by simp)
      | tick =>
        obtain ⟨lines, buses, -⟩ := tickTimers_spec s
        refine OwnershipLaw.of_lines h buses (by simp) (.of_staging (by simp)) (fun k => by rw [lines])
          (fun k => .inl (by rw [lines])) (fun k q none => ?_)
        rw [lines]
        simp [none]
    | claimWaits p q l args w _ owner other => exact claimWaits_law h args w owner other
    | reset p => exact portCleared_law h p
    | _ => exact kept _ (by simp) (by simp)
  | ramps =>
    refine OwnershipLaw.of_sameOwners h ⟨fun _ => rfl, fun _ => rfl⟩ (fun _ law => law) (fun l b nonzero => .inl ?_)
      (.of_staging rfl)
    simpa [MixEngine.stepRamps, step_target] using nonzero
  | transmit x _ => exact OwnershipLaw.congr h rfl rfl (.of_staging rfl)
  | phase => exact OwnershipLaw.congr h rfl rfl (.of_staging rfl)

/-- Settles O53: an owner changes only with the clean-up of its line, or of its bus's cells and groups. -/
theorem ownershipLawIsKept : Obligations.OwnershipLawIsKept := by
  intro s t law sequence run
  refine (step_keeps (P := fun u => OwnershipLaw u ∧ PendingLaw u) (fun _ _ h => h) (fun _ _ m h => ?_) (fun _ _ h => h)
    (fun _ h => ?_) (fun u _ => ?_) run ⟨law, fun p => (sequence.2 p).2.2.1⟩).1
  · exact ⟨frameMove_ownershipLaw m h.1 h.2, frameMove_pendingLaw m h.2⟩
  · exact ⟨h.1, tellPaused_pendingLaw h.2⟩
  · have law : OwnershipLaw State.reset := by decide
    have pending : PendingLaw State.reset := by
      unfold PendingLaw
      decide
    exact ⟨law, pending⟩

end Sys2Proof.Proofs.Ownership


namespace Sys2Proof.Proofs.Slots

open Sys2Proof Sys2Proof.Machine Sys2Proof.Safety Sys2Proof.Proofs.Courses Sys2Proof.Proofs.Effects

/-! ## The law of one port -/

/-- The lines that port `p` waits for (R78). -/
def waitsAt (s : State) (p : Port) (l : Line) : Bool := (tget (s.line l).waiters p).isSome

/-- A held port is empty and silent (R184). -/
def SilentHeld (x : CtrlPort) : Prop :=
  x.held = true → x.slot = .empty ∧ x.unread = false ∧ x.writeNotTaken = false ∧ x.response = []

/-- The slot law for one port: with the lines it waits for and whether it waits for a capture. -/
def PortLaw (x : CtrlPort) (waits : Line → Bool) (captures : Bool) : Prop :=
  (x.unread = true → isDone x.slot = true) ∧
  (∀ c ∈ workingCode x.slot, c = 0x30 ∧ (∃ l, waits l = true) ∨ c = 0x68 ∧ captures = true) ∧
  (∀ l, waits l = true → workingCode x.slot = some 0x30) ∧ (∀ l k, waits l = true → waits k = true → l = k) ∧
  (captures = true → workingCode x.slot = some 0x68) ∧ SilentHeld x

theorem slotLaw_iff (s : State) : SlotLaw s ↔ ∀ p, PortLaw (s.port p) (waitsAt s p) (tget s.meter.waiting p) :=
  ⟨fun ⟨h1, h2, h3, h4, h5, h6⟩ p => ⟨h1 p, h2 p, h3 p, h4 p, h5 p, h6 p⟩,
    fun h => ⟨fun p => (h p).1, fun p => (h p).2.1, fun p => (h p).2.2.1, fun p => (h p).2.2.2.1,
      fun p => (h p).2.2.2.2.1, fun p => (h p).2.2.2.2.2⟩⟩

theorem isWorking_eq (x : Slot) : x.isWorking = (workingCode x).isSome := by cases x <;> rfl

variable {x y : CtrlPort} {waits : Line → Bool} {captures : Bool}

/-- A port whose slot stays. -/
theorem PortLaw.of_slot (h : PortLaw x waits captures) (slot : y.slot = x.slot) (unread : y.unread = true → x.unread = true)
    (held : SilentHeld y) : PortLaw y waits captures := by
  obtain ⟨h1, h2, h3, h4, h5, -⟩ := h
  rw [PortLaw, slot]
  exact ⟨fun u => h1 (unread u), h2, h3, h4, h5, held⟩

/-- A port whose task does not go on waits for nothing (R180). -/
theorem PortLaw.quiet (h : PortLaw x waits captures) (idle : x.slot.isWorking = false) :
    (∀ l, waits l = false) ∧ captures = false := by
  obtain ⟨-, -, h3, -, h5, -⟩ := h
  rw [isWorking_eq] at idle
  constructor
  · intro l
    cases w : waits l
    · rfl
    · simp [h3 l w] at idle
  · cases c : captures
    · rfl
    · simp [h5 c] at idle

/-- A port with a waiting CLAIM waits for one line and no capture. -/
theorem PortLaw.claims (h : PortLaw x waits captures) {l : Line} (w : waits l = true) :
    captures = false ∧ ∀ k, k ≠ l → waits k = false := by
  obtain ⟨-, -, h3, h4, h5, -⟩ := h
  constructor
  · cases c : captures
    · rfl
    · simpa using (h3 l w).symm.trans (h5 c)
  · intro k e
    cases w' : waits k
    · rfl
    · exact absurd (h4 k l w' w) e

/-- A port with a waiting SNAP waits for no line. -/
theorem PortLaw.snaps (h : PortLaw x waits captures) (working : workingCode x.slot = some 0x68) : ∀ l, waits l = false := by
  intro l
  cases w : waits l
  · rfl
  · simpa using working.symm.trans (h.2.2.1 l w)

/-- A port that waits for nothing and whose slot is not WORKING. -/
theorem PortLaw.resting (unread : x.unread = true → isDone x.slot = true) (idle : workingCode x.slot = none)
    (held : SilentHeld x) (nowhere : ∀ l, waits l = false) (nothing : captures = false) : PortLaw x waits captures := by
  refine ⟨unread, ?_, ?_, ?_, ?_, held⟩ <;> simp_all

/-- A port whose waiting task has been completed (R180). -/
theorem PortLaw.delivered (h : PortLaw x waits captures) (r : Result) {waits' : Line → Bool} {captures' : Bool}
    (w : ∀ l, waits' l = false) (c : captures' = false) : PortLaw (delivered x r) waits' captures' := by
  obtain ⟨h1, -, -, -, -, h6⟩ := h
  cases slot : x.slot with
  | working code args =>
    have e : Safety.delivered x r = { x with slot := .done code args r, unread := true } := by simp [Safety.delivered, slot]
    rw [e]
    refine .resting (fun _ => rfl) (by simp [workingCode]) (fun held => ?_) w c
    have := (h6 held).1
    simp [slot] at this
  | empty =>
    have e : Safety.delivered x r = x := by simp [Safety.delivered, slot]
    rw [e]
    exact .resting h1 (by simp [slot, workingCode]) h6 w c
  | done code args r' =>
    have e : Safety.delivered x r = x := by simp [Safety.delivered, slot]
    rw [e]
    exact .resting h1 (by simp [slot, workingCode]) h6 w c

/-! ## Waits under moves -/

/-- The waits of every port are as before. -/
def SameWaits (s t : State) : Prop := ∀ p, waitsAt t p = waitsAt s p

theorem SameWaits.of_waiters {s t : State} (h : ∀ k, (t.line k).waiters = (s.line k).waiters) : SameWaits s t := fun p =>
  funext fun k => by rw [waitsAt, h, waitsAt]

theorem SameWaits.of_table {s t : State} (h : t.lineTable = s.lineTable) : SameWaits s t :=
  .of_waiters fun k => by rw [line_congr h]

theorem slotLaw_of_same {s t : State} (h : SlotLaw s) (waits : SameWaits s t) (meter : t.meter.waiting = s.meter.waiting)
    (ports : t.ports = s.ports) : SlotLaw t := by
  rw [slotLaw_iff] at h ⊢
  intro p
  rw [port_congr ports, waits, meter]
  exact h p

theorem changeOwner_slots {s : State} (h : SlotLaw s) {l : Line} {prev : Port} {new : Option Port} {actor : Port}
    (nobody : new = none → ∀ q, tget (s.line l).waiters q = none) : SlotLaw (s.changeOwner l prev new actor) := by
  obtain ⟨⟨-, self, ⟨-, others⟩, -⟩, -, -, -, ports, -⟩ := State.changeOwner_spec s l prev new actor
  have meter : (s.changeOwner l prev new actor).meter = s.meter := by simp
  rw [slotLaw_iff] at h ⊢
  intro q
  have waits : ∀ k, waitsAt (s.changeOwner l prev new actor) q k = (waitsAt s q k && !(k == l && new == some q)) := fun k => by
    unfold waitsAt
    by_cases e : k = l
    · subst e
      rw [self]
      cases new with
      | none => simp [nobody rfl q]
      | some n => by_cases n = q <;> simp_all
    · simp [others k e, e]
  rw [meter]
  by_cases told : new = some q ∧ (tget (s.line l).waiters q).isSome = true
  · obtain ⟨captures, elsewhere⟩ := (h q).claims (l := l) told.2
    rw [(ports q).1 told]
    refine (h q).delivered _ (fun k => ?_) captures
    rw [waits]
    by_cases e : k = l
    · simp [e, told.1]
    · simp [elsewhere k e]
  · rw [(ports q).2 told]
    have same : waitsAt (s.changeOwner l prev new actor) q = waitsAt s q := funext fun k => by
      rw [waits]
      by_cases e : k = l ∧ new = some q
      · have none : waitsAt s q k = false := by
          rw [e.1, ← Bool.not_eq_true]
          exact fun w => told ⟨e.2, w⟩
        simp [none]
      · have kept : (k == l && new == some q) = false := by simpa using e
        simp [kept]
    rw [same]
    exact h q

theorem clearAll_slots {s : State} (h : SlotLaw s) : SlotLaw s.clearAll := by
  obtain ⟨-, lines, -, -, -, -, ports, -⟩ := clearAll_spec s
  have meter : s.clearAll.meter = s.meter := by simp
  rw [slotLaw_iff] at h ⊢
  intro q
  have nobody : ∀ k, waitsAt s.clearAll q k = false := fun k => by
    unfold waitsAt
    rw [lines]
    split <;> simp [LineRec.cleaned]
  rw [ports, meter]
  split
  · rename_i waits
    obtain ⟨l, -, w⟩ := List.any_eq_true.1 waits
    exact (h q).delivered _ nobody ((h q).claims w).1
  · rename_i waits
    have same : waitsAt s.clearAll q = waitsAt s q := funext fun k => by
      rw [nobody]
      simp only [State.waitsOnLine, List.any_eq_true, not_exists, not_and, Bool.not_eq_true] at waits
      exact (waits k (List.mem_finRange k)).symm
    rw [same]
    exact h q

theorem endWait_slots {s : State} (h : SlotLaw s) {l : Line} {p : Port} (why : Reason)
    (waiting : (tget (s.line l).waiters p).isSome = true) : SlotLaw (s.endWait l p why) := by
  obtain ⟨⟨-, others⟩, self, ports, -⟩ := State.endWait_spec s l p why
  have meter : (s.endWait l p why).meter = s.meter := by simp
  rw [slotLaw_iff] at h ⊢
  intro q
  have waits : ∀ k, waitsAt (s.endWait l p why) q k = (waitsAt s q k && !(k == l && q == p)) := fun k => by
    unfold waitsAt
    by_cases e : k = l
    · subst e
      rw [self, tget_tset]
      split <;> simp_all
    · simp [others k e, e]
  rw [ports, meter]
  split
  · rename_i e
    subst e
    obtain ⟨captures, elsewhere⟩ := (h q).claims (l := l) waiting
    refine (h q).delivered _ (fun k => ?_) captures
    rw [waits]
    by_cases e : k = l
    · simp [e]
    · simp [elsewhere k e]
  · rename_i e
    have same : waitsAt (s.endWait l p why) q = waitsAt s q := funext fun k => by simp [waits, e]
    rw [same]
    exact h q

theorem lineMove_slots {s t : State} (m : LineMove s t) (h : SlotLaw s) : SlotLaw t := by
  have kept : ∀ u : State, (∀ k, (u.line k).waiters = (s.line k).waiters) → u.meter = s.meter → u.ports = s.ports → SlotLaw u :=
    fun u waiters meter ports => slotLaw_of_same h (.of_waiters waiters) (by rw [meter]) ports
  cases m with
  | act p a _ _ =>
    exact kept _ (fun k => by rw [performAction_line, Outputs.actionOnLine_kept]) (by simp) (by simp)
  | park x v _ => exact kept _ (fun _ => rfl) rfl rfl
  | attention l =>
    refine kept _ (fun k => ?_) (by simp) (by simp)
    rw [(State.setAttention_spec s l false).1]
    split <;> simp_all
  | grant l p _ =>
    refine kept _ (fun k => ?_) (by simp) (by simp)
    rw [(State.modLine_spec s l _).1]
    split <;> simp_all [LineRec.granted]
  | changeOwner l prev new actor _ nobody => exact changeOwner_slots h nobody
  | assignBus b q =>
    refine kept _ (fun k => ?_) (by simp) (by simp)
    rw [(assignBus_spec s b q).2.1]
    split <;> rfl
  | clearAll => exact clearAll_slots h
  | endWait l p why waiting => exact endWait_slots h why waiting
  | talkOn l x _ _ _ =>
    refine kept _ (fun k => ?_) (by simp) (by simp)
    rw [talkOn_line]
    split <;> simp_all
  | clearTalks sel => exact kept _ (fun k => by rw [(clearTalks_spec s sel).1]) (by simp) (by simp)
  | applyPending p =>
    have spec := applyPending_spec s p
    split at spec
    · rw [spec]
      exact h
    · exact kept _ (fun k => by rw [spec.1, Outputs.foldl_actionOnLine_kept]) (by simp) (by simp)
  | connect l =>
    refine kept _ (fun k => ?_) (by simp) (by simp)
    rw [takeConnect_line]
    split <;> simp_all
  | disconnect l =>
    refine kept _ (fun k => ?_) (by simp) (by simp)
    rw [takeDisconnect_line]
    split <;> simp_all
  | attentionRaised l =>
    refine kept _ (fun k => ?_) (by simp) (by simp)
    rw [takeAttentionRaised_line]
    split <;> simp_all
  | attentionDropped l =>
    refine kept _ (fun k => ?_) (by simp) (by simp)
    rw [takeAttentionDropped_line]
    split <;> simp_all
  | debounce rx _ =>
    refine kept _ (fun k => ?_) (by simp) (by simp)
    rw [State.stepDebounce, (State.mapLines_spec s _).1]

theorem meterMove_slots {s t : State} (m : MeterMove s t) (h : SlotLaw s) : SlotLaw t := by
  cases m with
  | unlock => exact slotLaw_of_same h (.of_table rfl) rfl rfl
  | report o _ => exact slotLaw_of_same h (.of_table rfl) rfl rfl
  | capture =>
    have spec := capture_spec s
    split at spec
    · rw [spec]
      exact h
    · obtain ⟨meter, ports, -⟩ := spec
      have waits : SameWaits s s.capture := .of_table (by simp)
      rw [slotLaw_iff] at h ⊢
      intro q
      rw [ports, waits, meter]
      split
      · rename_i captures
        exact (h q).delivered _ ((h q).snaps ((h q).2.2.2.2.1 captures)) (tget_tall _ _)
      · rename_i other
        have same : tget s.meter.waiting q = tget (tall false : Table 4 Bool) q := by
          rw [tget_tall]
          simpa using other
        rw [← same]
        exact h q
  | abort p r working =>
    obtain ⟨ports, -⟩ := State.deliver_spec (s.withMeter { s.meter with waiting := tset s.meter.waiting p false }) p r
    have waits : SameWaits s ((s.withMeter { s.meter with waiting := tset s.meter.waiting p false }).deliver p r) :=
      .of_table (by simp)
    have meter : ((s.withMeter { s.meter with waiting := tset s.meter.waiting p false }).deliver p r).meter.waiting =
        tset s.meter.waiting p false := by simp
    rw [slotLaw_iff] at h ⊢
    intro q
    rw [ports, waits, meter]
    split
    · rename_i e
      subst e
      exact (h q).delivered r ((h q).snaps working) (tget_tset_self _ _ _)
    · rename_i e
      rw [tget_tset_of_ne _ _ e]
      exact h q

/-- A move that changes one port, and perhaps what it waits for. -/
theorem SlotLaw.of_port {s t : State} (h : SlotLaw s) (p : Port) (others : ∀ q, q ≠ p → t.port q = s.port q)
    (waits : ∀ q, q ≠ p → waitsAt t q = waitsAt s q) (meter : ∀ q, q ≠ p → tget t.meter.waiting q = tget s.meter.waiting q)
    (self : PortLaw (t.port p) (waitsAt t p) (tget t.meter.waiting p)) : SlotLaw t := by
  rw [slotLaw_iff] at h ⊢
  intro q
  by_cases e : q = p
  · rw [e]
    exact self
  · rw [others q e, waits q e, meter q e]
    exact h q

/-- A move that touches one port, and neither waits nor captures. -/
theorem SlotLaw.of_modPort {s : State} (h : SlotLaw s) (p : Port) {t : State} (table : t.lineTable = s.lineTable)
    (meter : t.meter = s.meter) (others : ∀ q, q ≠ p → t.port q = s.port q)
    (self : PortLaw (t.port p) (waitsAt s p) (tget s.meter.waiting p)) : SlotLaw t := by
  have waits : SameWaits s t := .of_table table
  refine SlotLaw.of_port h p others (fun q _ => waits q) (fun q _ => by rw [meter]) ?_
  rw [waits, meter]
  exact self

/-- A CLAIM that waits: its port waits for one more line (R85). -/
theorem waitsAt_claim (s : State) (p : Port) (l : Line) (args : List Byte) (w : TimeLeft) (q : Port) (k : Line) :
    waitsAt ((s.modLine l fun r => { r with waiters := tset r.waiters p (some w) }).goWorking p 0x30 args) q k =
      (waitsAt s q k || (k == l && q == p)) := by
  obtain ⟨lines, -⟩ := State.modLine_spec s l fun r => { r with waiters := tset r.waiters p (some w) }
  have line : ((s.modLine l fun r => { r with waiters := tset r.waiters p (some w) }).goWorking p 0x30 args).line k =
      if k = l then { s.line l with waiters := tset (s.line l).waiters p (some w) } else s.line k :=
    (line_congr (by simp) k).trans (lines k)
  unfold waitsAt
  rw [line]
  by_cases e : k = l
  · rw [if_pos e, tget_tset]
    by_cases f : q = p <;> simp [e, f]
  · simp [e]

theorem claimWaits_slots {s : State} (h : SlotLaw s) {p : Port} (ready : Ready s p) (l : Line) (args : List Byte) (w : TimeLeft) :
    SlotLaw ((s.modLine l fun r => { r with waiters := tset r.waiters p (some w) }).goWorking p 0x30 args) := by
  obtain ⟨ports, -⟩ := State.goWorking_spec (s.modLine l fun r => { r with waiters := tset r.waiters p (some w) }) p 0x30 args
  obtain ⟨waits, captures⟩ := ((slotLaw_iff s).1 h p).quiet ready.2
  have moved := waitsAt_claim s p l args w
  have port : ∀ x, (s.modLine l fun r => { r with waiters := tset r.waiters p (some w) }).port x = s.port x :=
    port_congr (by simp)
  refine SlotLaw.of_port h p (fun x e => by rw [ports, if_neg e, port]) (fun x e => funext fun k => ?_)
    (fun x _ => by simp) ?_
  · rw [moved, beq_eq_false_iff_ne.2 e]
    simp
  · have only : ∀ k,
        waitsAt ((s.modLine l fun r => { r with waiters := tset r.waiters p (some w) }).goWorking p 0x30 args) p k = (k == l) :=
      fun k => by rw [moved, waits, beq_self_eq_true, Bool.and_true, Bool.false_or]
    rw [ports, if_pos rfl, port]
    refine ⟨by simp, fun c hc => .inl ⟨(Option.some.inj hc).symm, l, (only l).trans (beq_self_eq_true l)⟩, fun _ _ => rfl,
      fun j k hj hk => ?_, fun k => ?_, fun k => absurd k (by simp [ready.1])⟩
    · rw [only, beq_iff_eq] at hj hk
      rw [hj, hk]
    · simp [captures] at k

theorem move_slots {s t : State} (m : Move s t) (h : SlotLaw s) : SlotLaw t := by
  have law := (slotLaw_iff s).1 h
  cases m with
  | block m =>
    cases m with
    | notice w e f x => exact h
    | line m => exact lineMove_slots m h
    | load m => exact slotLaw_of_same h (.of_table m.frame.1) (by rw [m.frame.2.2.2.2.1]) m.frame.2.2.2.2.2.2.1
    | player m => exact slotLaw_of_same h (.of_table m.frame.1) (by rw [m.frame.2.2.2.2.1]) m.frame.2.2.2.2.2.2.1
    | meter m => exact meterMove_slots m h
    | clock m => exact slotLaw_of_same h (.of_table m.frame.1) (by rw [m.frame.2.2.2.2.2.1]) m.frame.2.2.2.2.2.2.1
    | stray p code r working other nobody =>
      rcases (law p).2.1 code working with ⟨-, l, w⟩ | ⟨snap, -⟩
      · exact absurd w (by simp [waitsAt, nobody l])
      · exact absurd snap other
    | tick =>
      obtain ⟨lines, -, -, -, -, meter, -⟩ := tickTimers_spec s
      refine slotLaw_of_same h (fun p => funext fun k => ?_) (by rw [meter]) (by simp)
      rw [waitsAt, lines, waitsAt]
      simp
  | writeNotTaken p v held =>
    obtain ⟨ports, -⟩ := State.modPort_spec s p fun x => { x with writeNotTaken := v }
    refine SlotLaw.of_modPort h p (by simp) (by simp) (fun q e => by rw [ports, if_neg e]) ?_
    rw [ports, if_pos rfl]
    exact (law p).of_slot rfl id fun k => by simp [held] at k
  | respond p more held =>
    obtain ⟨ports, -⟩ := State.respond_spec s p more
    refine SlotLaw.of_modPort h p (by simp) (by simp) (fun q e => by rw [ports, if_neg e]) ?_
    rw [ports, if_pos rfl]
    exact (law p).of_slot rfl id fun k => by simp [held] at k
  | complete p code args r ready =>
    obtain ⟨ports, -⟩ := State.complete_spec s p code args r
    obtain ⟨waits, captures⟩ := (law p).quiet ready.2
    refine SlotLaw.of_modPort h p (by simp) (by simp) (fun q e => by rw [ports, if_neg e]) ?_
    rw [ports, if_pos rfl]
    exact .resting (fun _ => rfl) (by simp [workingCode]) (fun k => by simp [ready.1] at k) waits captures
  | claimWaits p q l args w ready _ _ => exact claimWaits_slots h ready l args w
  | snapWaits p args ready =>
    obtain ⟨ports, -⟩ := State.goWorking_spec
      (s.withMeter { s.meter with waiting := tset s.meter.waiting p true }) p 0x68 args
    obtain ⟨waits, captures⟩ := (law p).quiet ready.2
    have same : SameWaits s ((s.withMeter { s.meter with waiting := tset s.meter.waiting p true }).goWorking p 0x68 args) :=
      .of_table (by simp)
    have port : ∀ x, (s.withMeter { s.meter with waiting := tset s.meter.waiting p true }).port x = s.port x :=
      port_congr (by simp)
    have meter : ((s.withMeter { s.meter with waiting := tset s.meter.waiting p true }).goWorking p 0x68 args).meter.waiting =
        tset s.meter.waiting p true := by simp
    refine SlotLaw.of_port h p (fun x e => by rw [ports, if_neg e, port]) (fun x _ => same x)
      (fun x e => by rw [meter, tget_tset_of_ne _ _ e]) ?_
    rw [ports, if_pos rfl, port, same, meter, tget_tset_self]
    refine ⟨by simp, fun c hc => .inr ⟨by simpa [workingCode] using hc.symm, rfl⟩, fun k w => ?_, fun j k w => ?_,
      fun _ => rfl, fun k => by simp [ready.1] at k⟩
    · simp [waits k] at w
    · simp [waits j] at w
  | markRead p =>
    have ports : ∀ q, (s.markRead p).port q = if q = p then { s.port p with unread := false } else s.port q := fun q =>
      (port_congr (s := s.modPort p fun x => { x with unread := false }) (by simp [State.markRead]) q).trans
        ((State.modPort_spec s p fun x => { x with unread := false }).1 q)
    refine SlotLaw.of_modPort h p (by simp) (by simp) (fun q e => by rw [ports, if_neg e]) ?_
    rw [ports, if_pos rfl]
    refine (law p).of_slot rfl (by simp) fun held => ?_
    obtain ⟨slot, -, written, response⟩ := (law p).2.2.2.2.2 held
    exact ⟨slot, rfl, written, response⟩
  | reset p =>
    obtain ⟨ports, -⟩ := portCleared_ports s p
    obtain ⟨lines, -⟩ := portCleared_lines s p
    obtain ⟨-, meter, -⟩ := portCleared_blocks s p
    refine SlotLaw.of_port h p (fun q e => by rw [ports, if_neg e]) (fun q e => funext fun k => ?_) (fun q e => ?_) ?_
    · rw [waitsAt, lines, waitsAt, tget_tset_of_ne _ _ e]
    · rw [meter]
      exact tget_tset_of_ne _ _ e
    · rw [ports, if_pos rfl, meter]
      refine .resting (by simp [CtrlPort.reset]) (by simp [CtrlPort.reset, workingCode]) (fun _ => ⟨rfl, rfl, rfl, rfl⟩) (fun k => ?_) (tget_tset_self _ _ _)
      rw [waitsAt, lines, tget_tset_self]
      rfl
  | release p =>
    obtain ⟨ports, -⟩ := State.modPort_spec s p fun x => { x with held := false }
    refine SlotLaw.of_modPort h p (by simp) (by simp) (fun q e => by rw [ports, if_neg e]) ?_
    rw [ports, if_pos rfl]
    exact (law p).of_slot rfl id fun k => by cases k

theorem frameMove_slots {s t : State} (m : FrameMove s t) (h : SlotLaw s) : SlotLaw t := by
  cases m with
  | other m => exact move_slots m h
  | _ => exact h

/-- Settles O55: a slot becomes WORKING and a wait begins in one move, and a wait ends with the completion of its task. -/
theorem slotLawIsKept : Obligations.SlotLawIsKept := by
  intro s t law run
  refine step_keeps (P := SlotLaw) (fun _ _ h => h) (fun _ _ m h => frameMove_slots m h) (fun _ _ h => h) (fun _ h => h)
    (fun u _ => ?_) run law
  have nobody : ∀ p l, waitsAt State.reset p l = false := by
    unfold waitsAt
    decide
  have nothing : ∀ p, tget State.reset.meter.waiting p = false := by decide
  have port : ∀ p, (poweredOn u).port p = { CtrlPort.reset with held := (u.port p).held } := fun p => tget_tmake _ _
  rw [slotLaw_iff]
  intro p
  rw [port]
  exact .resting (by simp [CtrlPort.reset]) (by simp [CtrlPort.reset, workingCode]) (fun _ => ⟨rfl, rfl, rfl, rfl⟩) (nobody p)
    (nothing p)

end Sys2Proof.Proofs.Slots


namespace Sys2Proof.Proofs.Notices

open Sys2Proof Sys2Proof.Machine Sys2Proof.Safety Sys2Proof.Proofs.Courses Sys2Proof.Proofs.Effects

/-! ## The views -/

/-- The Notice Unit's views are what they view (R146, R149). -/
def ViewsLaw (s : State) : Prop :=
  (∀ l, tget s.notice.latchView l = (s.line l).attention) ∧ ∀ p, tget s.notice.unreadView p = (s.port p).unread

theorem delivered_unread (x : CtrlPort) (r : Result) : (delivered x r).unread = if x.slot.isWorking = true then true else x.unread := by
  unfold delivered
  cases h : x.slot <;> simp [Slot.isWorking]

/-- The views of latches stay with the latches. -/
def LatchesKept (s t : State) : Prop :=
  t.notice.latchView = s.notice.latchView ∧ ∀ l, (t.line l).attention = (s.line l).attention

/-- The views of unread marks stay with the marks. -/
def MarksKept (s t : State) : Prop :=
  (∀ p, tget s.notice.unreadView p = (s.port p).unread) → ∀ p, tget t.notice.unreadView p = (t.port p).unread

theorem ViewsLaw.of_kept {s t : State} (h : ViewsLaw s) (latches : LatchesKept s t) (marks : MarksKept s t) : ViewsLaw t :=
  ⟨fun l => by rw [latches.1, latches.2, h.1], marks h.2⟩

theorem LatchesKept.of_table {s t : State} (notice : t.notice.latchView = s.notice.latchView) (table : t.lineTable = s.lineTable) :
    LatchesKept s t := ⟨notice, fun l => by rw [line_congr table]⟩

theorem MarksKept.of_ports {s t : State} (notice : t.notice.unreadView = s.notice.unreadView) (ports : t.ports = s.ports) :
    MarksKept s t := fun h p => by
  rw [notice, port_congr ports]
  exact h p

/-- Completions to the ports that `who` picks keep the marks. -/
theorem MarksKept.of_delivered {s t : State} {who : Port → Prop} [DecidablePred who] {r : Port → Result}
    (ports : ∀ q, t.port q = if who q then delivered (s.port q) (r q) else s.port q)
    (views : ∀ q, tget t.notice.unreadView q =
      if who q ∧ (s.port q).slot.isWorking = true then true else tget s.notice.unreadView q) : MarksKept s t := fun h q => by
  rw [ports, views]
  by_cases told : who q
  · rw [if_pos told, delivered_unread, h]
    simp only [told, true_and]
  · rw [if_neg told, if_neg fun c => told c.1]
    exact h q

/-- A completion to one port keeps the marks (R178, R180). -/
theorem deliver_marks {s t : State} {p : Port} {r : Result} (ports : ∀ q, t.port q = if q = p then delivered (s.port p) r else s.port q)
    (views : ∀ q, tget t.notice.unreadView q =
      if q = p ∧ (s.port p).slot.isWorking = true then true else tget s.notice.unreadView q) : MarksKept s t := by
  refine .of_delivered (who := fun q => q = p) (r := fun _ => r) (fun q => ?_) fun q => ?_
  · rw [ports]
    split <;> simp_all
  · rw [views]
    by_cases e : q = p <;> simp [e]

theorem changeOwner_marks (s : State) (l : Line) (prev : Port) (new : Option Port) (actor : Port) :
    MarksKept s (s.changeOwner l prev new actor) := by
  obtain ⟨-, -, -, -, ports, -, views⟩ := State.changeOwner_spec s l prev new actor
  refine .of_delivered (who := fun q => new = some q ∧ (tget (s.line l).waiters q).isSome = true)
    (r := fun _ => ends .done .none prev.val) (fun q => ?_) fun q => ?_
  · split
    · rename_i told
      exact (ports q).1 told
    · rename_i told
      exact (ports q).2 told
  · split
    · rename_i told
      exact (views q).1 told
    · rename_i told
      exact (views q).2 told

theorem setAttention_views {s : State} (h : ViewsLaw s) (l : Line) (v : Bool) : ViewsLaw (s.setAttention l v) := by
  obtain ⟨lines, -⟩ := State.setAttention_spec s l v
  refine ⟨fun k => ?_, h.2⟩
  show tget (tset s.notice.latchView l v) k = _
  rw [lines, tget_tset]
  split
  · rfl
  · exact h.1 k

theorem lineMove_views {s t : State} (m : LineMove s t) (h : ViewsLaw s) : ViewsLaw t := by
  have kept : ∀ u : State, u.notice.latchView = s.notice.latchView → u.notice.unreadView = s.notice.unreadView →
      u.ports = s.ports → (∀ k, (u.line k).attention = (s.line k).attention) → ViewsLaw u :=
    fun u latch unread ports lines => h.of_kept ⟨latch, lines⟩ (.of_ports unread ports)
  cases m with
  | act p a _ _ =>
    exact kept _ (by simp) (by simp) (by simp) fun k => by rw [performAction_line, Outputs.actionOnLine_kept]
  | park x v _ => exact h
  | attention l => exact setAttention_views h l false
  | grant l p _ =>
    refine kept _ (by simp) (by simp) (by simp) fun k => ?_
    rw [(State.modLine_spec s l _).1]
    split <;> simp_all [LineRec.granted]
  | changeOwner l prev new actor _ _ =>
    obtain ⟨⟨-, -, ⟨-, others⟩, -⟩, latch, -, notice, -⟩ := State.changeOwner_spec s l prev new actor
    refine h.of_kept ⟨by rw [notice], fun k => ?_⟩ (changeOwner_marks s l prev new actor)
    by_cases e : k = l
    · rw [e, latch]
    · rw [others k e]
  | assignBus b q =>
    refine kept _ (by simp) (by simp) (by simp) fun k => ?_
    rw [(assignBus_spec s b q).2.1]
    split <;> rfl
  | clearAll =>
    obtain ⟨-, lines, -, -, -, notice, ports, -, views⟩ := clearAll_spec s
    refine h.of_kept ⟨by rw [notice], fun k => ?_⟩ (.of_delivered (who := fun q => s.waitsOnLine q = true) ports views)
    rw [lines]
    split <;> rfl
  | endWait l p why _ =>
    obtain ⟨⟨-, others⟩, self, ports, -, views, notice⟩ := State.endWait_spec s l p why
    refine h.of_kept ⟨by rw [notice], fun k => ?_⟩ (deliver_marks ports views)
    by_cases e : k = l
    · rw [e, self]
    · rw [others k e]
  | talkOn l x _ _ _ =>
    have notice := (State.raiseTalkEnded_spec s l x.talker).2
    have same : (s.talkOn l x).notice = (s.raiseTalkEnded l x.talker).notice := by simp [State.talkOn]
    refine kept _ (by rw [same, notice]) (by rw [same, notice]) (by simp) fun k => ?_
    rw [talkOn_line]
    split
    · rename_i e
      rw [e]
    · rfl
  | clearTalks sel => exact kept _ (by simp) (by simp) (by simp) fun k => by rw [(clearTalks_spec s sel).1]
  | applyPending p =>
    have spec := applyPending_spec s p
    split at spec
    · rw [spec]
      exact h
    · exact kept _ (by simp) (by simp) (by simp) fun k => by rw [spec.1, Outputs.foldl_actionOnLine_kept]
  | connect l =>
    refine kept _ (by simp) (by simp) (by simp) fun k => ?_
    rw [takeConnect_line]
    split <;> simp_all
  | disconnect l =>
    have notice : (s.takeDisconnect l).notice = { s.notice with events := (s.takeDisconnect l).notice.events } := by
      unfold State.takeDisconnect
      dsimp only
      split
      · exact (State.raise_spec _ _ l .dropped).2
      · rfl
    refine kept _ (by rw [notice]) (by rw [notice]) (by simp) fun k => ?_
    rw [takeDisconnect_line]
    split
    · rename_i e
      rw [e]
    · rfl
  | attentionRaised l =>
    have raised : ViewsLaw (s.modLine l fun r => { r with attnRaised := true, attnCount := 0 }) := by
      refine kept _ (by simp) (by simp) (by simp) fun k => ?_
      rw [(State.modLine_spec s l _).1]
      split <;> simp_all
    have set := setAttention_views raised l true
    unfold State.takeAttentionRaised
    dsimp only
    split
    · exact set
    · exact set
  | attentionDropped l =>
    refine kept _ (by simp) (by simp) (by simp) fun k => ?_
    rw [takeAttentionDropped_line]
    split <;> simp_all
  | debounce rx _ =>
    refine kept _ (by simp) (by simp) (by simp) fun k => ?_
    rw [State.stepDebounce, (State.mapLines_spec s _).1]

theorem meterMove_views {s t : State} (m : MeterMove s t) (h : ViewsLaw s) : ViewsLaw t := by
  cases m with
  | unlock => exact h
  | report o _ => exact h
  | capture =>
    have spec := capture_spec s
    split at spec
    · rw [spec]
      exact h
    · obtain ⟨-, ports, -, views, notice⟩ := spec
      exact h.of_kept (.of_table (by rw [notice]) (by simp))
        (.of_delivered (who := fun q => tget s.meter.waiting q = true) ports views)
  | abort p r _ =>
    obtain ⟨ports, -, views, notice⟩ :=
      State.deliver_spec (s.withMeter { s.meter with waiting := tset s.meter.waiting p false }) p r
    exact ViewsLaw.of_kept (s := s.withMeter { s.meter with waiting := tset s.meter.waiting p false }) h
      (.of_table (by rw [notice]) (by simp)) (deliver_marks ports views)

theorem move_views {s t : State} (m : Move s t) (h : ViewsLaw s) : ViewsLaw t := by
  have kept : ∀ u : State, u.notice = s.notice → u.lineTable = s.lineTable → u.ports = s.ports → ViewsLaw u :=
    fun u notice table ports => h.of_kept (.of_table (by rw [notice]) table) (.of_ports (by rw [notice]) ports)
  cases m with
  | block m =>
    cases m with
    | notice w e f x => exact h
    | line m => exact lineMove_views m h
    | load m => exact kept _ m.frame.2.2.2.1 m.frame.1 m.frame.2.2.2.2.2.2.1
    | player m => exact kept _ m.frame.2.2.2.1 m.frame.1 m.frame.2.2.2.2.2.2.1
    | meter m => exact meterMove_views m h
    | clock m =>
      obtain ⟨table, -, -, -, notice, -, ports, -⟩ := m.frame
      exact h.of_kept (.of_table (by rw [notice]) table) (.of_ports (by rw [notice]) ports)
    | stray p code r _ _ _ =>
      obtain ⟨ports, -, views, notice⟩ := State.deliver_spec s p r
      exact h.of_kept (.of_table (by rw [notice]) (by simp)) (deliver_marks ports views)
    | tick => exact h.of_kept ⟨by simp, fun k => by rw [(tickTimers_spec s).1]⟩ (.of_ports (by simp) (by simp))
  | writeNotTaken p v _ =>
    refine h.of_kept (.of_table (by simp) (by simp)) fun marks q => ?_
    rw [(State.modPort_spec s p _).1, (State.modPort_frame s p _).2.2.2.2.1]
    split <;> simp_all
  | respond p more _ =>
    obtain ⟨ports, -, notice, -⟩ := State.respond_spec s p more
    refine h.of_kept (.of_table (by rw [notice]) (by simp)) fun marks q => ?_
    rw [ports, notice]
    split
    · rename_i e
      rw [e]
      exact marks p
    · exact marks q
  | complete p code args r _ =>
    obtain ⟨ports, -, views, notice⟩ := State.complete_spec s p code args r
    refine h.of_kept (.of_table (by rw [notice]) (by simp)) fun marks q => ?_
    rw [ports, views]
    split
    · rfl
    · exact marks q
  | claimWaits p q l args w _ _ _ =>
    obtain ⟨lines, -⟩ := State.modLine_spec s l fun r => { r with waiters := tset r.waiters p (some w) }
    obtain ⟨ports, -, views, notice⟩ :=
      State.goWorking_spec (s.modLine l fun r => { r with waiters := tset r.waiters p (some w) }) p 0x30 args
    have waits : ViewsLaw (s.modLine l fun r => { r with waiters := tset r.waiters p (some w) }) :=
      h.of_kept ⟨by simp, fun k => by rw [lines]; split <;> simp_all⟩ (.of_ports (by simp) (by simp))
    refine waits.of_kept (.of_table (by rw [notice]) (by simp)) fun marks x => ?_
    rw [ports, views]
    split
    · rfl
    · exact marks x
  | snapWaits p args _ =>
    obtain ⟨ports, -, views, notice⟩ := State.goWorking_spec
      (s.withMeter { s.meter with waiting := tset s.meter.waiting p true }) p 0x68 args
    refine ViewsLaw.of_kept (s := s.withMeter { s.meter with waiting := tset s.meter.waiting p true }) h
      (.of_table (by rw [notice]) (by simp)) fun marks x => ?_
    rw [ports, views]
    split
    · rfl
    · exact marks x
  | markRead p =>
    refine h.of_kept (.of_table rfl (by simp)) fun marks q => ?_
    show tget (tset s.notice.unreadView p false) q = ((s.modPort p fun x => { x with unread := false }).port q).unread
    rw [(State.modPort_spec s p _).1, tget_tset]
    split
    · rfl
    · exact marks q
  | reset p =>
    obtain ⟨ports, -⟩ := portCleared_ports s p
    obtain ⟨lines, -⟩ := portCleared_lines s p
    obtain ⟨-, -, notice, -⟩ := portCleared_blocks s p
    refine h.of_kept ⟨by rw [notice]; rfl, fun k => by rw [lines]⟩ fun marks q => ?_
    rw [ports, notice]
    show tget (tset s.notice.unreadView p false) q = _
    rw [tget_tset]
    split
    · rfl
    · exact marks q
  | release p =>
    refine h.of_kept (.of_table (by simp) (by simp)) fun marks q => ?_
    rw [(State.modPort_spec s p _).1, (State.modPort_frame s p _).2.2.2.2.1]
    split <;> simp_all

theorem frameMove_views {s t : State} (m : FrameMove s t) (h : ViewsLaw s) : ViewsLaw t := by
  cases m with
  | other m => exact move_views m h
  | _ => exact h

/-! ## The notice lines -/

/-- A command leaves the Notice Unit, or ends with its lines driven (R149). -/
def DrivenOrKept (s t : State) : Prop := t.notice = s.notice ∨ ∃ u : State, t = u.driveNotices

theorem DrivenOrKept.follow {s t : State} (d : DrivenOrKept s t) (h : NoticeLinesFollow s) : NoticeLinesFollow t := by
  rcases d with same | ⟨u, rfl⟩
  · intro q
    have old := h q
    simp only [State.noticeLevel, State.unreadResult, State.eventsPending, State.watchedAttention, State.referenceChange] at old ⊢
    rw [same]
    exact old
  · exact (State.driveNotices_spec u).2

theorem respond_driven (s u : State) (p : Port) (more : List Byte) : DrivenOrKept s (u.respond p more) := .inr ⟨_, rfl⟩

theorem DrivenOrKept.ite {s u v : State} (c : Bool) (h1 : c = true → DrivenOrKept s u) (h2 : DrivenOrKept s v) :
    DrivenOrKept s (if c then u else v) := by
  cases c
  · exact h2
  · exact h1 rfl

theorem writeTask_driven (s : State) (p : Port) (code : Byte) (args : List Byte) (ok changing : Bool) (body : State → TaskEnd) :
    DrivenOrKept s (s.writeTask p code args ok changing body) := by
  by_cases held : (s.port p).held = true
  · rw [State.writeTask_held held]
    exact .inl rfl
  have held : (s.port p).held = false := by simpa using held
  by_cases working : (s.port p).slot.isWorking = true
  · rw [State.writeTask_working held working]
    exact respond_driven _ _ _ _
  · rw [State.writeTask_ready ⟨held, by simpa using working⟩]
    exact respond_driven _ _ _ _

theorem writeTask_outcome {s t : State} {p : Port} {code : Byte} {args : List Byte} {ok changing : Bool} {body : State → TaskEnd}
    (h : Host.Outcome.next (s.writeTask p code args ok changing body) = (.next t : Host.Outcome State Fault Refusal)) :
    DrivenOrKept s t := by
  cases h
  exact writeTask_driven _ _ _ _ _ _ _

theorem takeStep_outcome {s t : State} {p : Port} {kind : Nat} {carry : StepBody → State}
    (h : s.takeStep p kind carry = .next t) : DrivenOrKept s t := by
  cases h
  exact .ite _ (fun _ => .inr ⟨_, rfl⟩) (.inl rfl)

/-- A command that acts where its condition holds, and then drives the lines. -/
theorem driven_outcome {s t u : State} {c : Bool}
    (h : Host.Outcome.next (if c then u.driveNotices else s) = (.next t : Host.Outcome State Fault Refusal)) :
    DrivenOrKept s t := by
  cases h
  exact .ite _ (fun _ => .inr ⟨_, rfl⟩) (.inl rfl)

/-- A command that leaves the Notice Unit. -/
theorem kept_outcome {s t u : State} (h : Host.Outcome.next u = (.next t : Host.Outcome State Fault Refusal))
    (same : u.notice = s.notice) : DrivenOrKept s t := by
  cases h
  exact .inl same

theorem exec_driven {c : Instr} {s t : State} (h : exec c s = .next t) (other : c ≠ .powerOnReset) : DrivenOrKept s t := by
  cases c with
  | powerOnReset => exact absurd rfl other
  | readResult p =>
    cases h
    exact .ite (s.port p).held (fun _ => .inl rfl) (respond_driven _ _ _ _)
  | readStatus p cmd =>
    cases h
    exact .ite (s.port p).held (fun _ => .inl rfl) (respond_driven _ _ _ _)
  | abort p =>
    cases h
    refine .ite (s.port p).held (fun _ => .inl rfl) ?_
    cases (s.port p).slot <;> exact respond_driven _ _ _ _
  | portReset p =>
    cases h
    exact .ite (s.port p).held (fun _ => .inl rfl) (.inr ⟨_, rfl⟩)
  | portResetRelease p => exact kept_outcome h (by simp)
  | freezeAsserted => exact kept_outcome h (by simp)
  | freezeReleased =>
    refine kept_outcome h ?_
    split <;> simp
  | chunkTimerExpiry p => exact kept_outcome h (by simp)
  | waitTimerExpiry p => exact kept_outcome h (by simp)
  | awaitTimeout p => exact kept_outcome h (by simp)
  | snapshotExpiry => exact kept_outcome h (by simp)
  | examineInvalidStep p =>
    refine kept_outcome h ?_
    split <;> simp
  | examineMalformedStep p =>
    refine kept_outcome h ?_
    split <;> simp
  | stepSetCell p => exact takeStep_outcome h
  | stepSetTrim p => exact takeStep_outcome h
  | stepPlace p => exact takeStep_outcome h
  | stepTone p => exact takeStep_outcome h
  | stepTalkOn p => exact takeStep_outcome h
  | stepTalkOff p => exact takeStep_outcome h
  | stepWait p => exact takeStep_outcome h
  | stepAwait p => exact takeStep_outcome h
  | stepGroup p => exact takeStep_outcome h
  | stepEnd p => exact takeStep_outcome h
  | frameEvent rx => exact driven_outcome h
  | signallingWord rx => exact driven_outcome h
  | connect l => exact driven_outcome h
  | disconnect l => exact driven_outcome h
  | attentionRaised l => exact driven_outcome h
  | attentionDropped l => exact driven_outcome h
  | claimWaitExpiry l p => exact driven_outcome h
  | referencePeriod r n => exact driven_outcome h
  | missingPeriod r => exact driven_outcome h
  | referenceLock r => exact driven_outcome h
  | referenceLoss r => exact driven_outcome h
  | _ => exact writeTask_outcome h

theorem step_noticeLines {s t : State} (h : NoticeLinesFollow s) (run : step s = .next t) : NoticeLinesFollow t := by
  unfold step at run
  split at run
  · cases run
    exact h
  · rename_i c rest _
    by_cases e : c = .powerOnReset
    · subst e
      cases run
      have reset : NoticeLinesFollow State.reset := by decide
      exact reset
    · exact (exec_driven run e).follow h

/-- Settles O56: a latch or mark moves with its view, and every command that moves a condition drives the lines. -/
theorem noticeLawIsKept : Obligations.NoticeLawIsKept := by
  intro s t ⟨latches, marks, lines⟩ run
  have views : ViewsLaw t := by
    refine step_keeps (P := ViewsLaw) (fun _ _ h => h) (fun _ _ m h => frameMove_views m h) (fun _ _ h => h) (fun _ h => h)
      (fun u _ => ⟨?_, fun p => ?_⟩) run ⟨latches, marks⟩
    · have reset : ∀ l, tget State.reset.notice.latchView l = (State.reset.line l).attention := by decide
      exact reset
    · have reset : ∀ p, tget State.reset.notice.unreadView p = false := by decide
      have port : (poweredOn u).port p = { CtrlPort.reset with held := (u.port p).held } := tget_tmake _ _
      rw [port]
      exact reset p
  exact ⟨views.1, views.2, step_noticeLines lines run⟩

end Sys2Proof.Proofs.Notices


namespace Sys2Proof.Proofs.Clock

open Sys2Proof Sys2Proof.Machine Sys2Proof.Safety Sys2Proof.Proofs.Courses Sys2Proof.Proofs.Effects

/-! ## What a lock, a loss and a missing period write -/

theorem lockReference_ref (s : State) (r k : RefId) :
    (s.lockReference r).ref k = if k = r then { s.ref r with state := .locked, count := 0, reached := false } else s.ref k := by
  have refs : (s.lockReference r).ref k =
      (s.setRef r { s.ref r with state := .locked, count := 0, reached := false }).ref k := by
    unfold State.lockReference State.flagReference State.ref
    dsimp only
    (repeat' split) <;> simp
  rw [refs, (State.setRef_spec s r _).1]

theorem loseReference_ref (s : State) (r k : RefId) :
    (s.loseReference r).ref k = if k = r then { s.ref r with state := .acquiring, count := 0, reached := false } else s.ref k := by
  have refs : (s.loseReference r).ref k =
      (s.setRef r { s.ref r with state := .acquiring, count := 0, reached := false }).ref k := by
    unfold State.loseReference State.flagReference State.ref
    dsimp only
    (repeat' split) <;> simp
  rw [refs, (State.setRef_spec s r _).1]

/-- The state in which a reference's record alone is that of a new lock. -/
def withLocked (s : State) (r : RefId) : State := s.setRef r { s.ref r with state := .locked, count := 0, reached := false }

theorem lockReference_eq (s : State) (r : RefId) :
    s.lockReference r =
      if r = RefId.int ∧ (!s.clock.running) = true then
        (withLocked s r).withClock { (withLocked s r).clock with
          running := true
          generator := if ((withLocked s r).ref s.clock.selected).state = .locked then .following else .holdover
          rate := some ((withLocked s r).ref r).length
          pull := 0 }
      else if r = s.clock.selected ∧ s.clock.generator = .holdover ∧ s.clock.running = true then
        ((withLocked s r).withClock { (withLocked s r).clock with
          generator := .following, pull := Config.pullFrames }).flagReference
      else withLocked s r := rfl

/-- A lock moves the generator where it is INT's first or the selected reference's in HOLDOVER (R168, R169). -/
theorem lockReference_clock (s : State) (r : RefId) :
    (s.lockReference r).clock =
      if r = RefId.int ∧ (!s.clock.running) = true then { s.clock with
        refs := (s.lockReference r).clock.refs, running := true
        generator := if ((s.lockReference r).ref s.clock.selected).state = .locked then .following else .holdover
        rate := some (s.ref r).length, pull := 0 }
      else if r = s.clock.selected ∧ s.clock.generator = .holdover ∧ s.clock.running = true then { s.clock with
        refs := (s.lockReference r).clock.refs, generator := .following, pull := 4800 }
      else { s.clock with refs := (s.lockReference r).clock.refs } := by
  have moved := (State.setRef_spec s r { s.ref r with state := .locked, count := 0, reached := false }).1
  have selected : ((s.lockReference r).ref s.clock.selected).state = ((withLocked s r).ref s.clock.selected).state := by
    rw [lockReference_ref, withLocked, moved]
  have length : ((withLocked s r).ref r).length = (s.ref r).length := by
    rw [withLocked, moved, if_pos rfl]
  rw [selected, lockReference_eq]
  by_cases first : r = RefId.int ∧ (!s.clock.running) = true
  · rw [if_pos first, if_pos first, length]
    rfl
  · rw [if_neg first, if_neg first]
    by_cases back : r = s.clock.selected ∧ s.clock.generator = .holdover ∧ s.clock.running = true
    · rw [if_pos back, if_pos back]
      rfl
    · rw [if_neg back, if_neg back]
      rfl

theorem loseReference_eq (s : State) (r : RefId) :
    s.loseReference r =
      if r = s.clock.selected ∧ s.clock.generator = .following then
        ((s.setRef r { s.ref r with state := .acquiring, count := 0, reached := false }).withClock
          { (s.setRef r { s.ref r with state := .acquiring, count := 0, reached := false }).clock with
            generator := .holdover, pull := 0 }).flagReference
      else s.setRef r { s.ref r with state := .acquiring, count := 0, reached := false } := rfl

/-- A loss puts the generator that follows the reference in HOLDOVER (R169). -/
theorem loseReference_clock (s : State) (r : RefId) :
    (s.loseReference r).clock =
      if r = s.clock.selected ∧ s.clock.generator = .following then { s.clock with
        refs := (s.loseReference r).clock.refs, generator := .holdover, pull := 0 }
      else { s.clock with refs := (s.loseReference r).clock.refs } := by
  rw [loseReference_eq]
  by_cases follows : r = s.clock.selected ∧ s.clock.generator = .following
  · rw [if_pos follows, if_pos follows]
    rfl
  · rw [if_neg follows, if_neg follows]
    rfl

/-! ## The law under the moves of the Frame Clock Unit -/

/-- The record of a reference in range, closed or open, with no lock or loss due. -/
theorem refLaw_acquiring (r : RefId) (x : RefRec) : RefLaw r { x with state := .acquiring, count := 0, reached := false } := by
  refine ⟨by simp, fun _ => ⟨?_, by simp⟩, by simp⟩
  unfold lockThreshold
  split <;> simp

theorem refLaw_locked (r : RefId) (x : RefRec) : RefLaw r { x with state := .locked, count := 0, reached := false } :=
  ⟨by simp, by simp, by simp⟩

/-- The law reads the clock. -/
theorem clockLaw_congr {s t : State} (h : ClockLaw s) (clock : t.clock = s.clock) : ClockLaw t := by
  have refs := ref_congr clock
  simpa only [ClockLaw, refs, clock] using h

/-- A reference whose state stays gets another record in range. -/
theorem setRef_law {s : State} (h : ClockLaw s) {r : RefId} {x : RefRec} (state : x.state = (s.ref r).state)
    (range : RefLaw r x) (int : r = RefId.int → x.state = .locked → x.count = 0 ∧ x.reached = false)
    (lnk : r = RefId.lnk → x.armed = true → s.clock.missed = 0 ∧ s.clock.sinceMarker.isSome = true) :
    ClockLaw (s.setRef r x) := by
  obtain ⟨refs, clock⟩ := State.setRef_spec s r x
  obtain ⟨h1, h2, h3, h4, h5, h6, h7, h8, h9, h10⟩ := h
  have states : ∀ k, ((s.setRef r x).ref k).state = (s.ref k).state := fun k => by
    rw [refs]
    split
    · rename_i e
      rw [e, state]
    · rfl
  have same : (s.setRef r x).clock = { s.clock with refs := (s.setRef r x).clock.refs } := by rw [clock]
  unfold ClockLaw
  rw [states, same, states]
  refine ⟨fun k => ?_, h2, h3, fun locked => ?_, h5, h6, h7, h8, fun armed => ?_, h10⟩
  · rw [refs]
    split
    · rename_i e
      exact e ▸ range
    · exact h1 k
  · rw [refs]
    split
    · rename_i e
      exact int e.symm (state.trans (by rw [← e]; exact locked))
    · exact h4 locked
  · rw [refs] at armed
    split at armed
    · rename_i e
      exact lnk e.symm armed
    · exact h9 armed

theorem every_genState (g : GenState) : g = .following ∨ g = .holdover := by cases g <;> simp

theorem lock_law {s : State} (h : ClockLaw s) {r : RefId} (due : s.lockDue r = true) : ClockLaw (s.lockReference r) := by
  obtain ⟨h1, h2, h3, h4, h5, h6, h7, h8, h9, h10, h11⟩ := h
  have acquiring : (s.ref r).state = .acquiring := by
    simp only [State.lockDue, Bool.and_eq_true, beq_iff_eq] at due
    exact due.2
  have refs := lockReference_ref s r
  have records : ∀ k, RefLaw k ((s.lockReference r).ref k) := fun k => by
    rw [refs]
    split
    · exact refLaw_locked k _
    · exact h1 k
  have armed : ((s.lockReference r).ref RefId.lnk).armed = (s.ref RefId.lnk).armed := by
    rw [refs]
    split
    · rename_i e
      rw [e]
    · rfl
  have clock := lockReference_clock s r
  by_cases int : r = RefId.int
  · subst int
    have stopped : s.clock.running = false := by
      by_contra running
      have locked := h3.2 (by simpa using running)
      rw [acquiring] at locked
      cases locked
    rw [if_pos (by simp [stopped])] at clock
    have first : (s.lockReference RefId.int).ref RefId.int =
        { s.ref RefId.int with state := .locked, count := 0, reached := false } := by rw [refs, if_pos rfl]
    have running : (s.lockReference RefId.int).clock.running = true := by rw [clock]
    have rate : (s.lockReference RefId.int).clock.rate.isSome = true := by rw [clock]; rfl
    have pull : (s.lockReference RefId.int).clock.pull = 0 := by rw [clock]
    refine ⟨records, by simp [first], by simp [first, running], by simp [first], ?_, ?_, by simp [running, rate], ?_, ?_,
      by simp [pull], by simp [pull]⟩
    · rw [clock]
      dsimp only
      rw [refs]
      split
      · simp
      · exact h5
    · rw [clock]
      simp
    · rw [clock]
      exact h8
    · rw [armed, clock]
      exact h9
  · have others : (s.lockReference r).ref RefId.int = s.ref RefId.int := by rw [refs, if_neg fun e => int e.symm]
    rw [if_neg fun c => int c.1] at clock
    by_cases back : r = s.clock.selected ∧ s.clock.generator = .holdover ∧ s.clock.running = true
    · rw [if_pos back] at clock
      have selected : (s.lockReference r).ref s.clock.selected =
          { s.ref r with state := .locked, count := 0, reached := false } := by rw [refs, if_pos back.1.symm]
      rw [ClockLaw, others, armed, clock]
      refine ⟨records, h2, h3, h4, by simp [selected], by simp [selected, back.2.2], h7, h8, h9, by simp, by simp⟩
    · rw [if_neg back] at clock
      rw [ClockLaw, others, armed, clock]
      refine ⟨records, h2, h3, h4, ?_, ?_, h7, h8, h9, h10, h11⟩
      · dsimp only
        rw [refs]
        split
        · simp
        · exact h5
      · dsimp only
        rw [refs]
        split
        · rename_i e
          have idle : ¬ s.clock.generator = .following := fun follows => by
            have locked := (h6.1 follows).1
            rw [e, acquiring] at locked
            cases locked
          have holds := (every_genState s.clock.generator).resolve_left idle
          have stopped : ¬ s.clock.running = true := fun running => back ⟨e.symm, holds, running⟩
          simp [idle, stopped]
        · exact h6

theorem lose_law {s : State} (h : ClockLaw s) {r : RefId} (due : s.lossDue r = true) : ClockLaw (s.loseReference r) := by
  obtain ⟨h1, h2, h3, h4, h5, h6, h7, h8, h9, h10, h11⟩ := h
  obtain ⟨reached, locked⟩ : (s.ref r).reached = true ∧ (s.ref r).state = .locked := by
    simpa only [State.lossDue, Bool.and_eq_true, beq_iff_eq] using due
  have int : r ≠ RefId.int := fun e => by
    subst e
    rw [(h4 locked).2] at reached
    cases reached
  have refs := loseReference_ref s r
  have records : ∀ k, RefLaw k ((s.loseReference r).ref k) := fun k => by
    rw [refs]
    split
    · exact refLaw_acquiring k _
    · exact h1 k
  have armed : ((s.loseReference r).ref RefId.lnk).armed = (s.ref RefId.lnk).armed := by
    rw [refs]
    split
    · rename_i e
      rw [e]
    · rfl
  have others : (s.loseReference r).ref RefId.int = s.ref RefId.int := by rw [refs, if_neg fun e => int e.symm]
  have clock := loseReference_clock s r
  by_cases follows : r = s.clock.selected ∧ s.clock.generator = .following
  · rw [if_pos follows] at clock
    have selected : (s.loseReference r).ref s.clock.selected =
        { s.ref r with state := .acquiring, count := 0, reached := false } := by rw [refs, if_pos follows.1.symm]
    rw [ClockLaw, others, armed, clock]
    exact ⟨records, h2, h3, h4, by simp [selected], by simp [selected], h7, h8, h9, by simp, by simp⟩
  · rw [if_neg follows] at clock
    rw [ClockLaw, others, armed, clock]
    refine ⟨records, h2, h3, h4, ?_, ?_, h7, h8, h9, h10, h11⟩
    · dsimp only
      rw [refs]
      split
      · simp
      · exact h5
    · dsimp only
      rw [refs]
      split
      · rename_i e
        have idle : ¬ s.clock.generator = .following := fun f => follows ⟨e.symm, f⟩
        simp [idle]
      · exact h6

theorem takeLockOrLoss_law {s : State} (h : ClockLaw s) (r : RefId) : ClockLaw (s.takeLockOrLoss r) := by
  unfold State.takeLockOrLoss
  split
  · rename_i due
    exact lock_law h due
  · split
    · rename_i due
      exact lose_law h due
    · exact h

/-- After a due lock or loss has been taken none is due (log 4); an enabled reference stays enabled. -/
theorem takeLockOrLoss_spec {s : State} (h : ClockLaw s) (r : RefId) :
    ((s.takeLockOrLoss r).ref r).reached = false ∧
    (((s.takeLockOrLoss r).ref r).state = .off ↔ (s.ref r).state = .off) ∧
    (s.takeLockOrLoss r).clock.marker = s.clock.marker ∧ (s.takeLockOrLoss r).clock.sinceMarker = s.clock.sinceMarker := by
  unfold State.takeLockOrLoss
  split
  · rename_i due
    simp only [State.lockDue, Bool.and_eq_true, beq_iff_eq] at due
    rw [lockReference_ref, lockReference_clock]
    refine ⟨by simp, by simp [due.2], ?_⟩
    (repeat' split) <;> simp
  · rename_i idle
    split
    · rename_i due
      simp only [State.lossDue, Bool.and_eq_true, beq_iff_eq] at due
      rw [loseReference_ref, loseReference_clock]
      refine ⟨by simp, by simp [due.2], ?_⟩
      split <;> simp
    · rename_i kept
      refine ⟨?_, Iff.rfl, rfl, rfl⟩
      obtain ⟨off, -⟩ := h.1 r
      simp only [State.lockDue, State.lossDue, Bool.and_eq_true, beq_iff_eq] at idle kept
      cases state : (s.ref r).state <;> simp_all

/-- A faulty period keeps the state and the range of a record that has no lock or loss due (R168). -/
theorem faulty_spec {r : RefId} {x : RefRec} (h : RefLaw r x) (reached : x.reached = false) :
    RefLaw r x.faulty ∧ x.faulty.state = x.state ∧ x.faulty.armed = x.armed := by
  obtain ⟨state, count, armed, _, length⟩ := x
  obtain rfl := reached
  cases state with
  | off => exact ⟨h, rfl, rfl⟩
  | acquiring =>
    refine ⟨⟨by simp [RefRec.faulty], fun _ => ⟨?_, by simp [RefRec.faulty]⟩, by simp [RefRec.faulty]⟩, rfl, rfl⟩
    show 0 < lockThreshold r
    unfold lockThreshold
    split <;> omega
  | locked =>
    by_cases room : count + 1 < 8
    · have e : RefRec.faulty ⟨.locked, count, armed, false, length⟩ = ⟨.locked, count + 1, armed, false, length⟩ := if_pos room
      rw [e]
      exact ⟨⟨by simp, by simp, fun _ => ⟨room, by simp⟩⟩, rfl, rfl⟩
    · have e : RefRec.faulty ⟨.locked, count, armed, false, length⟩ = ⟨.locked, count, armed, true, length⟩ := if_neg room
      have bound : count < 8 := (h.2.2 rfl).1
      rw [e]
      exact ⟨⟨by simp, by simp, fun _ => ⟨bound, fun _ => by dsimp only; omega⟩⟩, rfl, rfl⟩

/-- A sound period keeps the state and the range of a record that has no lock or loss due (R168). -/
theorem sound_spec {r : RefId} {x : RefRec} (h : RefLaw r x) (reached : x.reached = false) (n : Nat) :
    RefLaw r { x.sound r with length := n } ∧ (x.sound r).state = x.state ∧ (x.sound r).armed = x.armed ∧
    (x.state = .locked → (x.sound r).count = 0 ∧ (x.sound r).reached = false) := by
  obtain ⟨state, count, armed, _, length⟩ := x
  obtain rfl := reached
  cases state with
  | off => exact ⟨⟨fun _ => h.1 rfl, by simp [RefRec.sound], by simp [RefRec.sound]⟩, rfl, rfl, by simp⟩
  | acquiring =>
    by_cases room : count + 1 < lockThreshold r
    · have e : RefRec.sound ⟨.acquiring, count, armed, false, length⟩ r = ⟨.acquiring, count + 1, armed, false, length⟩ :=
        if_pos room
      rw [e]
      exact ⟨⟨by simp, fun _ => ⟨room, by simp⟩, by simp⟩, rfl, rfl, by simp⟩
    · have e : RefRec.sound ⟨.acquiring, count, armed, false, length⟩ r = ⟨.acquiring, count, armed, true, length⟩ :=
        if_neg room
      have bound : count < lockThreshold r := (h.2.1 rfl).1
      rw [e]
      exact ⟨⟨by simp, fun _ => ⟨bound, fun _ => by dsimp only; omega⟩, by simp⟩, rfl, rfl, by simp⟩
  | locked => exact ⟨⟨by simp [RefRec.sound], by simp [RefRec.sound], by simp [RefRec.sound]⟩, rfl, rfl, fun _ => ⟨rfl, rfl⟩⟩

/-- The count of LNK's missing periods moves with its interval closed. -/
theorem withMissed_law {s : State} (h : ClockLaw s) (n : Nat) (marker : Option Nat)
    (since : marker.isSome = true → s.clock.sinceMarker.isSome = true)
    (closed : (s.ref RefId.lnk).armed = true → n = 0) :
    ClockLaw (s.withClock { s.clock with missed := n, marker := marker }) := by
  obtain ⟨h1, h2, h3, h4, h5, h6, h7, h8, h9, h10⟩ := h
  exact ⟨h1, h2, h3, h4, h5, h6, h7, since, fun armed => ⟨closed armed, (h9 armed).2⟩, h10⟩

/-- Where no lock or loss of a reference is due, a faulty period with its interval closed keeps the law. -/
theorem closeFaulty_law {s : State} (h : ClockLaw s) {r : RefId} (reached : (s.ref r).reached = false) (other : r ≠ RefId.int) :
    ClockLaw (s.setRef r { (s.ref r).faulty with armed := false }) := by
  obtain ⟨range, state, -⟩ := faulty_spec (h.1 r) reached
  refine setRef_law h state ⟨fun o => ?_, range.2.1, range.2.2⟩ (fun e => absurd e other) fun _ a => by cases a
  obtain ⟨count, -, due⟩ := range.1 o
  exact ⟨count, rfl, due⟩

/-- A missing period keeps the law; it leaves an enabled reference enabled, and the markers (R167). -/
theorem missed_law {s : State} (h : ClockLaw s) {r : RefId} (other : r ≠ RefId.int) :
    ClockLaw (s.missed r) ∧ (((s.missed r).ref r).state = .off ↔ (s.ref r).state = .off) ∧
    (s.missed r).clock.marker = s.clock.marker ∧ (s.missed r).clock.sinceMarker = s.clock.sinceMarker := by
  obtain ⟨reached, off, marker, since⟩ := takeLockOrLoss_spec h r
  have law := closeFaulty_law (takeLockOrLoss_law h r) reached other
  obtain ⟨-, state, -⟩ := faulty_spec ((takeLockOrLoss_law h r).1 r) reached
  unfold State.missed
  generalize s.takeLockOrLoss r = u at reached off marker since law state
  obtain ⟨moved, -⟩ := State.setRef_spec u r { (u.ref r).faulty with armed := false }
  have enabled : ((u.setRef r { (u.ref r).faulty with armed := false }).ref r).state = .off ↔ (s.ref r).state = .off := by
    rw [moved, if_pos rfl, ← off, ← state]
  dsimp only
  split
  · refine ⟨?_, enabled, marker, since⟩
    refine withMissed_law law (u.clock.missed + 1) u.clock.marker law.2.2.2.2.2.2.2.1 fun armed => ?_
    rename_i e
    rw [← e, moved, if_pos rfl] at armed
    cases armed
  · exact ⟨law, enabled, marker, since⟩

theorem missMany_law (n : Nat) {s : State} (h : ClockLaw s) :
    ClockLaw (s.missMany n) ∧ (((s.missMany n).ref RefId.lnk).state = .off ↔ (s.ref RefId.lnk).state = .off) ∧
    (s.missMany n).clock.marker = s.clock.marker ∧ (s.missMany n).clock.sinceMarker = s.clock.sinceMarker := by
  induction n generalizing s with
  | zero => exact ⟨h, Iff.rfl, rfl, rfl⟩
  | succ n ih =>
    obtain ⟨law, off, marker, since⟩ := missed_law h (r := RefId.lnk) (by decide)
    obtain ⟨law', off', marker', since'⟩ := ih law
    exact ⟨law', off'.trans off, marker'.trans marker, since'.trans since⟩

/-- The generator follows a sound period only while frames run (R169). -/
theorem followPeriod_law {s : State} (h : ClockLaw s) (r : RefId) : ClockLaw (s.followPeriod r) := by
  obtain ⟨clock, rate⟩ := State.followPeriod_spec s r
  have refs : ∀ k, (s.followPeriod r).ref k = s.ref k := fun k => by rw [State.ref, State.ref, clock]
  split at rate
  · rename_i follows
    have rated : (s.followPeriod r).clock.rate.isSome = true := by
      split at rate
      · rw [rate.1]
        rfl
      · obtain ⟨x, some, -⟩ := rate
        rw [some]
        rfl
    obtain ⟨h1, h2, h3, h4, h5, h6, h7, h8, h9, h10⟩ := h
    have running := (h6.1 follows.2).2
    simp only [ClockLaw, refs]
    rw [clock]
    exact ⟨h1, h2, h3, h4, h5, h6, ⟨fun _ => rated, fun _ => running⟩, h8, h9, h10⟩
  · rw [rate]
    exact h

theorem soundPeriod_law {s : State} (h : ClockLaw s) (r : RefId) (reached : (s.ref r).reached = false) (n : Nat) :
    ClockLaw (s.soundPeriod r n) := by
  obtain ⟨range, state, armed, locked⟩ := sound_spec (h.1 r) reached n
  show ClockLaw ((s.setRef r { (s.ref r).sound r with length := n }).followPeriod r)
  refine followPeriod_law (setRef_law (x := { (s.ref r).sound r with length := n }) h state range (fun _ l => locked (state.symm.trans l)) fun e a => ?_) r
  subst e
  exact h.2.2.2.2.2.2.2.2.1 (armed.symm.trans a)

/-- The arrival on a reference with no lock or loss due and, for LNK, with its markers taken (R167). -/
theorem classed_law {s : State} (h : ClockLaw s) {r : RefId} (reached : (s.ref r).reached = false) (on : (s.ref r).state ≠ .off)
    (lnk : r = RefId.lnk → s.clock.missed = 0 ∧ s.clock.sinceMarker.isSome = true) (n : Nat) :
    ClockLaw (if !(s.ref r).armed then s.setRef r { s.ref r with armed := true }
      else if soundLength r n then s.soundPeriod r n else s.setRef r (s.ref r).faulty) := by
  have range := h.1 r
  split
  · refine setRef_law h rfl ⟨fun o => absurd o on, range.2.1, range.2.2⟩ (fun e l => ?_) fun e _ => lnk e
    subst e
    exact h.2.2.2.1 l
  · split
    · exact soundPeriod_law h r reached n
    · rename_i unsound
      have other : r ≠ RefId.int := fun e => by simp [soundLength, e] at unsound
      obtain ⟨range, state, -⟩ := faulty_spec range reached
      exact setRef_law h state range (fun e => absurd e other) fun e _ => lnk e

theorem arrival_law {s : State} (h : ClockLaw s) {r : RefId} (taken : s.arrivalTaken r = true) (n : Nat) :
    ClockLaw (s.arrival r n) := by
  obtain ⟨on, marked⟩ : (s.ref r).state ≠ .off ∧ (r ≠ RefId.lnk ∨ s.clock.marker.isSome = true) := by
    simpa only [State.arrivalTaken, Bool.and_eq_true, bne_iff_ne, Bool.or_eq_true] using taken
  unfold State.arrival
  generalize s.measured r n = length
  have before : ClockLaw (if r = RefId.lnk then s.missMany s.missingDue else s) ∧
      ((if r = RefId.lnk then s.missMany s.missingDue else s).ref r).state ≠ .off ∧
      (if r = RefId.lnk then s.missMany s.missingDue else s).clock.sinceMarker = s.clock.sinceMarker := by
    split
    · rename_i e
      subst e
      obtain ⟨law, off, -, since⟩ := missMany_law s.missingDue h
      exact ⟨law, fun o => on (off.1 o), since⟩
    · exact ⟨h, on, rfl⟩
  generalize (if r = RefId.lnk then s.missMany s.missingDue else s) = u at before
  obtain ⟨law, on, since⟩ := before
  obtain ⟨reached, off, -, since'⟩ := takeLockOrLoss_spec law r
  have law := takeLockOrLoss_law law r
  have since := since'.trans since
  have on : ((u.takeLockOrLoss r).ref r).state ≠ .off := fun o => on (off.1 o)
  dsimp only
  split
  · rename_i e
    subst e
    have some : s.clock.sinceMarker.isSome = true := h.2.2.2.2.2.2.2.1 (marked.resolve_left (by simp))
    exact classed_law (withMissed_law law 0 none (by simp) fun _ => rfl) reached on (fun _ => ⟨rfl, by rw [← some, ← since]; rfl⟩) length
  · rename_i e
    exact classed_law law reached on (fun e' => absurd e' e) length

/-- A reference that is turned on or off is neither INT nor, when turned off, the selected one (R171). -/
theorem switch_law {s : State} (h : ClockLaw s) {r : RefId} {x : RefRec} (int : r ≠ RefId.int) (selected : r ≠ s.clock.selected)
    (range : RefLaw r x) (closed : x.armed = false) : ClockLaw (s.setRef r x) := by
  obtain ⟨h1, h2, h3, h4, h5, h6, h7, h8, h9, h10⟩ := h
  obtain ⟨refs, clock⟩ := State.setRef_spec s r x
  have first : (s.setRef r x).ref RefId.int = s.ref RefId.int := by rw [refs, if_neg fun e => int e.symm]
  have chosen : (s.setRef r x).ref s.clock.selected = s.ref s.clock.selected := by rw [refs, if_neg fun e => selected e.symm]
  rw [ClockLaw, first, clock]
  dsimp only
  rw [chosen]
  refine ⟨fun k => ?_, h2, h3, h4, h5, h6, h7, h8, fun armed => ?_, h10⟩
  · rw [refs]
    split
    · rename_i e
      exact e ▸ range
    · exact h1 k
  · rw [refs] at armed
    split at armed
    · rw [closed] at armed
      cases armed
    · exact h9 armed

theorem lineMove_clock {s t : State} (m : LineMove s t) : t.clock = s.clock := by cases m <;> simp

theorem clockMove_law {s t : State} (m : ClockMove s t) (h : ClockLaw s) : ClockLaw t := by
  cases m with
  | enable r off =>
    have law : ClockLaw (s.setRef r { s.ref r with state := .acquiring, count := 0, armed := false, reached := false }) :=
      switch_law h (fun e => h.2.1 (e ▸ off)) (fun e => h.2.2.2.2.1 (e ▸ off))
        (refLaw_acquiring r { s.ref r with armed := false }) rfl
    unfold State.startAcquiring
    dsimp only
    split
    · rename_i e
      subst e
      obtain ⟨refs, -⟩ := State.setRef_spec s RefId.lnk
        { s.ref RefId.lnk with state := .acquiring, count := 0, armed := false, reached := false }
      obtain ⟨h1, h2, h3, h4, h5, h6, h7, -, -, h10⟩ := law
      refine ⟨h1, h2, h3, h4, h5, h6, h7, fun k => (by cases k), fun armed => ?_, h10⟩
      have closed := armed.symm.trans (congrArg RefRec.armed ((refs RefId.lnk).trans (if_pos rfl)))
      cases closed
    · exact law
  | disable r int selected =>
    exact switch_law h int selected ⟨fun _ => ⟨rfl, rfl, rfl⟩, fun k => (by cases k), fun k => (by cases k)⟩ rfl
  | follow r locked running =>
    obtain ⟨h1, h2, h3, h4, -, -, h7, h8, h9, -⟩ := h
    refine ⟨h1, h2, h3, h4, ?_, ⟨fun _ => ⟨locked, running⟩, fun _ => rfl⟩, h7, h8, h9, le_refl _, fun _ => rfl⟩
    show (s.ref r).state ≠ .off
    rw [locked]
    decide
  | select r locked stopped =>
    obtain ⟨h1, h2, h3, h4, -, h6, h7, h8, h9, h10⟩ := h
    have idle : ¬ s.clock.generator = .following := fun f => by simpa [stopped] using (h6.1 f).2
    refine ⟨h1, h2, h3, h4, ?_, ⟨fun f => absurd f idle, fun f => ?_⟩, h7, h8, h9, h10⟩
    · show (s.ref r).state ≠ .off
      rw [locked]
      decide
    · exact absurd f.2 (by simp [stopped])
  | lock r due => exact lock_law h due
  | lose r due => exact lose_law h due
  | missed r other => exact (missed_law h other).1
  | arrival r n taken => exact arrival_law h taken n
  | marker offset =>
    obtain ⟨h1, h2, h3, h4, h5, h6, h7, h8, h9, h10⟩ := h
    cases offset with
    | none =>
      refine ⟨h1, h2, h3, h4, h5, h6, h7, fun k => (by cases k), fun armed => ⟨(h9 armed).1, ?_⟩, h10⟩
      show (s.clock.sinceMarker.map _).isSome = true
      rw [Option.isSome_map]
      exact (h9 armed).2
    | some n => exact ⟨h1, h2, h3, h4, h5, h6, h7, fun _ => rfl, fun armed => ⟨(h9 armed).1, rfl⟩, h10⟩

theorem move_clockLaw {s t : State} (m : Move s t) (h : ClockLaw s) : ClockLaw t := by
  cases m with
  | block m =>
    cases m with
    | notice w e f x => exact h
    | line m => exact clockLaw_congr h (lineMove_clock m)
    | load m => exact clockLaw_congr h m.frame.2.2.2.2.2.1
    | player m => exact clockLaw_congr h m.frame.2.2.2.2.2.1
    | meter m => exact clockLaw_congr h m.frame.2.2.2.2.1
    | clock m => exact clockMove_law m h
    | stray p code r _ _ _ => exact clockLaw_congr h (by simp)
    | tick =>
      have clock := (tickTimers_spec s).2.2.2.2.2.2
      have refs : ∀ r, s.tickTimers.ref r = s.ref r := fun r => by
        rw [State.ref, clock]
        rfl
      obtain ⟨h1, h2, h3, h4, h5, h6, h7, h8, h9, h10, h11⟩ := h
      simp only [ClockLaw, refs]
      rw [clock]
      refine ⟨h1, h2, h3, h4, h5, h6, h7, h8, h9, ?_, fun pulls => h11 ?_⟩
      · show s.clock.pull - 1 ≤ 4800
        omega
      · have : 0 < s.clock.pull - 1 := pulls
        omega
  | reset p => exact clockLaw_congr h (portCleared_blocks s p).2.2.2.1
  | _ => exact clockLaw_congr h (by simp)

theorem frameMove_clockLaw {s t : State} (m : FrameMove s t) (h : ClockLaw s) : ClockLaw t := by
  cases m with
  | other m => exact move_clockLaw m h
  | _ => exact h

/-- Settles O57: a lock, a loss, a missing period and an arrival each keep the law, and INT has no faulty period to count. -/
theorem clockLawIsKept : Obligations.ClockLawIsKept := by
  intro s t law run
  refine step_keeps (P := ClockLaw) (fun _ _ h => h) (fun _ _ m h => frameMove_clockLaw m h) (fun _ _ h => h) (fun _ h => h)
    (fun u _ => ?_) run law
  have reset : ClockLaw State.reset := by decide
  exact reset

end Sys2Proof.Proofs.Clock


namespace Sys2Proof.Proofs.Sequences

open Sys2Proof Sys2Proof.Machine Sys2Proof.Safety Sys2Proof.Proofs.Courses Sys2Proof.Proofs.Effects
  Sys2Proof.Proofs.Players

/-! ## The law of one port's loader and player -/

/-- The law of a loader with the marks of its region and the state of its port's player (R116 to R118). -/
def LoaderLaw (x : Loader) (valid : Table 256 Bool) (player : PlayerState) : Prop :=
  x.offset + x.declared ≤ 256 ∧ x.received ≤ x.declared ∧ x.offset ≤ 255 ∧ 4800 ≤ x.timeout ∧ x.timeout ≤ 480000 ∧
  (x.loading = true ↔ x.timer.isSome = true) ∧ (x.loading = true → player = .idle) ∧
  (x.loading = true → ∀ a : Fin 256, x.offset ≤ a.val → a.val < x.offset + x.declared → tget valid a = false)

/-- A step of port `p` that FREEZE holds (R131, R139). -/
def HeldStep (s : State) (p : Port) (a : Nat) : Prop :=
  a ≠ 255 ∧ s.recordValid p a = true ∧ ∃ b ∈ decodeStep (s.record p a), b.heldByFreeze = true

/-- The law of a player with its group; `held` is what lets it be PAUSED (R128, R36, R131, R139). -/
def PlayerLaw (held : Prop) (heldStep : Nat → Prop) (x : Player) (group : Option (List Staged)) : Prop :=
  x.addr ≤ 255 ∧ x.endAddr ≤ 255 ∧ (x.state = .pending ↔ group.isSome = true) ∧
  (x.state = .idle → x.endReason ≠ .none → x.addr = x.endAddr) ∧ (x.state = .paused → held ∧ heldStep x.addr) ∧
  ∀ g ∈ group, 1 ≤ g.length ∧ g.length ≤ 16 ∧ x.addr + g.length < 255

/-- The law of port `p`'s loader and player. -/
def PortSequenced (held : Prop) (s : State) (p : Port) : Prop :=
  LoaderLaw (s.loader p) (tget s.cue.valid p) (s.player p).state ∧
  PlayerLaw held (HeldStep s p) (s.player p) (tget s.mix.staging p)

/-- The law of every loader and player. -/
def Sequenced (held : Prop) (s : State) : Prop := ∀ p, PortSequenced held s p

theorem sequenceLaw_iff (s : State) :
    SequenceLaw s ↔ Sequenced (s.ports.freeze = true ∨ s.pending.head? = some .freezeAsserted) s :=
  ⟨fun ⟨loaders, players⟩ p => ⟨loaders p, players p⟩, fun h => ⟨fun p => (h p).1, fun p => (h p).2⟩⟩

theorem heldStep_congr {s t : State} {p : Port} (valid : tget t.cue.valid p = tget s.cue.valid p)
    (record : ∀ a, a < 256 → t.record p a = s.record p a) : HeldStep t p = HeldStep s p := by
  funext a
  by_cases inside : a < 256
  · simp only [HeldStep, State.recordValid, valid, record a inside]
  · simp [HeldStep, State.recordValid, inside]

theorem heldStep_of_cue {s t : State} (h : t.cue = s.cue) (p : Port) : HeldStep t p = HeldStep s p :=
  heldStep_congr (by rw [h]) fun a _ => by rw [State.record, State.record, h]

variable {held : Prop}

theorem PlayerLaw.imp {held' : Prop} {steps : Nat → Prop} {x : Player} {g : Option (List Staged)}
    (h : PlayerLaw held steps x g) (lets : x.state = .paused → held → held') : PlayerLaw held' steps x g := by
  obtain ⟨h1, h2, h3, h4, h5, h6⟩ := h
  exact ⟨h1, h2, h3, h4, fun paused => ⟨lets paused (h5 paused).1, (h5 paused).2⟩, h6⟩

/-- A player that is not PAUSED and has no group. -/
theorem PlayerLaw.plain {steps : Nat → Prop} {x : Player} (addr : x.addr ≤ 255) (endAddr : x.endAddr ≤ 255)
    (pending : x.state ≠ .pending) (paused : x.state ≠ .paused) (idle : x.state = .idle → x.addr = x.endAddr) :
    PlayerLaw held steps x none :=
  ⟨addr, endAddr, by simp [pending], fun i _ => idle i, fun p => absurd p paused, by simp⟩

theorem PlayerLaw.ended {steps : Nat → Prop} (why : EndReason) {a : Nat} (h : a ≤ 255) :
    PlayerLaw held steps (endedPlayer why a) none :=
  .plain h h (by simp [endedPlayer]) (by simp [endedPlayer]) fun _ => rfl

/-- The loader's law where the player ends, or was running already. -/
theorem LoaderLaw.of_player {x : Loader} {valid : Table 256 Bool} {y z : PlayerState} (h : LoaderLaw x valid y)
    (state : y = .idle → z = .idle) : LoaderLaw x valid z := by
  obtain ⟨h1, h2, h3, h4, h5, h6, h7, h8⟩ := h
  exact ⟨h1, h2, h3, h4, h5, h6, fun l => state (h7 l), h8⟩

theorem pastWait_law {steps : Nat → Prop} {x : Player} (addr : x.addr ≤ 255) (endAddr : x.endAddr ≤ 255) :
    PlayerLaw held steps (pastWait x) none := by
  unfold pastWait
  split
  · exact .ended _ addr
  · exact .plain (by dsimp only; omega) endAddr (by simp) (by simp) (by simp)

/-- Another block's move of a player keeps the law of its port. -/
theorem PlayerOutcome.sequenced {s t : State} {p : Port} (o : PlayerOutcome s t p) (cue : t.cue = s.cue)
    (h : PortSequenced held s p) : PortSequenced held t p := by
  obtain ⟨loader, player⟩ := h
  rw [PortSequenced, loader_congr cue, heldStep_of_cue cue, cue]
  cases o with
  | same x g =>
    rw [x, g]
    exact ⟨loader, player⟩
  | gone why x g =>
    rw [x, g]
    exact ⟨loader.of_player fun _ => rfl, .ended why player.1⟩
  | applied g staged x gone =>
    obtain ⟨addr, endAddr, pending, -, -, bounds⟩ := player
    have bound := (bounds g staged).2.2
    have state := pending.2 (by rw [staged]; rfl)
    rw [x, gone]
    refine ⟨loader.of_player fun i => ?_, .plain (by dsimp only; omega) endAddr (by simp) (by simp) (by simp)⟩
    rw [state] at i
    cases i
  | told awaits x g =>
    obtain ⟨time, l, c, mode, awaits⟩ := awaits
    obtain ⟨addr, endAddr, pending, -⟩ := player
    have nothing : tget s.mix.staging p = none := by
      rw [awaits] at pending
      simpa using pending
    rw [x, g, nothing]
    refine ⟨loader.of_player fun i => ?_, pastWait_law addr endAddr⟩
    rw [awaits] at i
    cases i

/-! ## Moves of the loaders -/

/-- A change of one port's loader, marks or records, while its player is IDLE or the records stay. -/
theorem Sequenced.of_loader {s t : State} (h : Sequenced held s) (p : Port) (players : t.players = s.players)
    (mix : t.mix = s.mix) (others : ∀ q, q ≠ p → t.loader q = s.loader q ∧ tget t.cue.valid q = tget s.cue.valid q ∧
      ∀ a, a < 256 → t.record q a = s.record q a)
    (self : LoaderLaw (t.loader p) (tget t.cue.valid p) (s.player p).state)
    (steps : (s.player p).state = .paused → HeldStep t p = HeldStep s p) : Sequenced held t := by
  intro q
  obtain ⟨loader, player⟩ := h q
  rw [PortSequenced, player_congr players, mix]
  by_cases e : q = p
  · subst e
    refine ⟨self, ?_⟩
    obtain ⟨h1, h2, h3, h4, h5, h6⟩ := player
    refine ⟨h1, h2, h3, h4, fun paused => ?_, h6⟩
    rw [steps paused]
    exact h5 paused
  · obtain ⟨same, valid, records⟩ := others q e
    rw [same, valid, heldStep_congr valid records]
    exact ⟨loader, player⟩

/-- The records of two states with the same memory. -/
theorem record_of_mem {s t : State} (h : t.cue.mem = s.cue.mem) (q : Port) (a : Nat) : t.record q a = s.record q a := by
  rw [State.record, State.record, h]

theorem setLoader_other (s : State) {p q : Port} (x : Loader) (h : q ≠ p) : (s.setLoader p x).loader q = s.loader q :=
  tget_tset_of_ne _ _ h

theorem setLoader_self (s : State) (p : Port) (x : Loader) : (s.setLoader p x).loader p = x := tget_tset_self _ _ _

/-- The marks of the other ports' regions stay (R116). -/
theorem markRange_other (s : State) {p q : Port} (a n : Nat) (v : Bool) (h : q ≠ p) :
    tget (s.markRange p a n v).cue.valid q = tget s.cue.valid q :=
  table_ext fun i => by rw [(State.markRange_spec s p a n v).1, if_neg fun c => h c.1]

theorem ended_law {s : State} {p : Port} (h : LoaderLaw (s.loader p) (tget s.cue.valid p) (s.player p).state)
    (valid : Table 256 Bool) (player : PlayerState) (o : LoadOutcome) : LoaderLaw ((s.loader p).ended o) valid player := by
  obtain ⟨h1, h2, h3, h4, h5, -, -, -⟩ := h
  exact ⟨h1, h2, h3, h4, h5, by simp [Loader.ended], by simp [Loader.ended], by simp [Loader.ended]⟩

theorem stop_sequenced {s : State} (h : Sequenced held s) (p : Port) (o : LoadOutcome) :
    Sequenced held (s.setLoader p ((s.loader p).ended o)) := by
  refine h.of_loader p (by simp) (by simp) (fun q e => ⟨setLoader_other s _ e, rfl, fun _ _ => rfl⟩) ?_ fun _ =>
    heldStep_congr rfl fun _ _ => rfl
  rw [setLoader_self]
  exact ended_law (h p).1 _ _ o

/-- Where the records of the other regions lie (R113). -/
theorem recordByte_apart {p q : Port} (h : q ≠ p) {a b n i : Nat} (room : b + n ≤ 256) (ha : a < 256) (hi : i < 8) :
    recordByte q a i < recordByte p b 0 ∨ recordByte p b 0 + 8 * n ≤ recordByte q a i := by
  have apart : q.val ≠ p.val := fun e => h (Fin.ext e)
  unfold recordByte
  omega

/-- The marks of a load's range, and its loader (R116, R120, R125). -/
theorem range_sequenced {s : State} (h : Sequenced held s) {p : Port} (idle : (s.player p).state = .idle) (a n : Nat) (v : Bool)
    {x : Loader} (law : LoaderLaw x (tget (s.markRange p a n v).cue.valid p) .idle) :
    Sequenced held ((s.markRange p a n v).setLoader p x) := by
  obtain ⟨-, mem, loaders⟩ := State.markRange_spec s p a n v
  refine h.of_loader p (by simp) (by simp) (fun q e => ⟨?_, markRange_other s a n v e, fun _ _ => record_of_mem mem _ _⟩) ?_
    fun paused => ?_
  · rw [setLoader_other _ _ e, State.loader, State.loader, loaders]
  · rw [setLoader_self, idle]
    exact law
  · rw [idle] at paused
    cases paused

theorem chunk_sequenced {s : State} (h : Sequenced held s) {p : Port} {args : List Byte} (loading : (s.loader p).loading = true)
    (whole : args.length % 8 = 0) (room : (s.loader p).received + args.length / 8 ≤ (s.loader p).declared) :
    Sequenced held ((s.withCue { s.cue with
      mem := s.cue.mem.writeBytes (recordByte p ((s.loader p).offset + (s.loader p).received) 0) args }).setLoader p
        { s.loader p with received := (s.loader p).received + args.length / 8, timer := some (s.loader p).timeout }) := by
  obtain ⟨h1, -, h3, h4, h5, -, h7, h8⟩ := (h p).1
  have idle := h7 loading
  refine h.of_loader p (by simp) (by simp) (fun q e => ⟨setLoader_other _ _ e, rfl, fun a inside => ?_⟩) ?_ fun paused => ?_
  · unfold State.record
    refine List.map_congr_left fun i hi => Memory.read_writeBytes_outside _ _ _ _ ?_
    have apart := recordByte_apart e (b := (s.loader p).offset + (s.loader p).received) (n := args.length / 8) (by omega) inside
      (List.mem_range.1 hi)
    omega
  · rw [setLoader_self]
    exact ⟨h1, room, h3, h4, h5, by simp [loading], fun _ => idle, fun _ => h8 loading⟩
  · rw [idle] at paused
    cases paused

theorem loadMove_sequenced {s t : State} (m : LoadMove s t) (h : Sequenced held s) : Sequenced held t := by
  cases m with
  | load p offset count ms o some room low high idle =>
    refine range_sequenced h idle offset count false ?_
    refine ⟨room, Nat.zero_le _, by dsimp only; omega, ?_, ?_, by simp, fun _ => rfl, fun _ a first last => ?_⟩
    · show 4800 ≤ msFrames ms
      unfold msFrames
      omega
    · show msFrames ms ≤ 480000
      unfold msFrames
      omega
    · rw [(State.markRange_spec s p offset count false).1, if_pos ⟨rfl, first, last⟩]
  | chunk p args loading whole room => exact chunk_sequenced h loading whole room
  | finish p loading =>
    exact range_sequenced h ((h p).1.2.2.2.2.2.2.1 loading) _ _ _ (ended_law (h p).1 _ _ _)
  | stop p o => exact stop_sequenced h p o

/-! ## Moves of the players -/

theorem setPlayer_sequenced {s : State} (h : Sequenced held s) (p : Port) {x : Player}
    (loader : (s.loader p).loading = true → x.state = .idle)
    (player : PlayerLaw held (HeldStep s p) x (tget s.mix.staging p)) : Sequenced held (s.setPlayer p x) := by
  intro q
  obtain ⟨old, oldPlayer⟩ := h q
  rw [PortSequenced, State.setPlayer_spec, loader_congr (s := s) (by simp), heldStep_of_cue (s := s) (by simp)]
  split
  · rename_i e
    subst e
    obtain ⟨h1, h2, h3, h4, h5, h6, -, h8⟩ := old
    exact ⟨⟨h1, h2, h3, h4, h5, h6, loader, h8⟩, player⟩
  · exact ⟨old, oldPlayer⟩

/-- A loader is not LOADING while its player is not IDLE (R118). -/
theorem not_loading {s : State} {p : Port} (h : PortSequenced held s p) (running : (s.player p).state ≠ .idle) :
    (s.loader p).loading = false := by
  by_contra loading
  exact running (h.1.2.2.2.2.2.2.1 (by simpa using loading))

theorem playerMove_sequenced {s t : State} (m : PlayerMove s t) (h : Sequenced (s.ports.freeze = true) s) :
    Sequenced (s.ports.freeze = true) t := by
  cases m with
  | run p a inside idle stopped =>
    obtain ⟨-, -, endAddr, pending, -⟩ := h p
    have nothing : tget s.mix.staging p = none := by
      rw [idle] at pending
      simpa using pending
    refine setPlayer_sequenced h p (fun l => ?_) ?_
    · rw [stopped] at l
      cases l
    · rw [nothing]
      exact .plain inside endAddr (by simp) (by simp) (by simp)
  | ends p why a bound =>
    obtain ⟨player, -, gone, others⟩ := State.endPlayer_spec s p why a
    intro q
    obtain ⟨loader, law⟩ := h q
    rw [PortSequenced, player, loader_congr (s := s) (by simp), heldStep_of_cue (s := s) (by simp)]
    split
    · rename_i e
      subst e
      rw [gone]
      exact ⟨loader.of_player fun _ => rfl, .ended why (bound law.1)⟩
    · rename_i e
      rw [others q e]
      exact ⟨loader, law⟩
  | walk x walks =>
    intro q
    have port := h q
    obtain ⟨loader, law⟩ := port
    have new : (s.withPlayers x).player q = tget x q := rfl
    rw [PortSequenced, new]
    rcases walks q with same | ⟨running, before, after, awake, bounds, stops⟩
    · rw [same]
      exact ⟨loader, law⟩
    · obtain ⟨addr, endAddr, pending, -⟩ := law
      have nothing : tget s.mix.staging q = none := by simpa [before] using pending
      obtain ⟨addr', endAddr'⟩ := bounds addr endAddr
      refine ⟨loader.of_player fun i => absurd i running, ?_⟩
      show PlayerLaw _ _ _ (tget s.mix.staging q)
      rw [nothing]
      exact .plain addr' endAddr' after awake stops
  | pause p b freeze stepping inside valid record holds =>
    obtain ⟨-, addr, endAddr, pending, -, -, group⟩ := h p
    refine setPlayer_sequenced h p (fun l => ?_) ⟨addr, endAddr, ?_, by simp, fun _ => ⟨freeze, inside, valid, b, record, holds⟩, group⟩
    · rw [not_loading (h p) (by simp [stepping])] at l
      cases l
    · rw [← pending]
      simp [stepping]
  | stage p g stepping first last bound _ =>
    intro q
    obtain ⟨loader, law⟩ := h q
    have new : ((s.setPlayer p { s.player p with state := .pending }).withMix
        { s.mix with staging := tset s.mix.staging p (some g) }).player q =
        if q = p then { s.player p with state := .pending } else s.player q := State.setPlayer_spec s p _ q
    show LoaderLaw (s.loader q) (tget s.cue.valid q) _ ∧ PlayerLaw _ (HeldStep s q) _ (tget (tset s.mix.staging p (some g)) q)
    rw [new, tget_tset]
    split
    · rename_i e
      subst e
      obtain ⟨addr, endAddr, -⟩ := law
      refine ⟨loader.of_player fun i => ?_, addr, endAddr, by simp, by simp, by simp, fun x hx => ?_⟩
      · rw [stepping] at i
        cases i
      · cases hx
        exact ⟨first, last, bound addr⟩
    · exact ⟨loader, law⟩

/-! ## Every move -/

theorem tick_sequenced {s : State} (h : Sequenced held s) : Sequenced held s.tickTimers := by
  obtain ⟨-, -, cue, loaders, players, -⟩ := tickTimers_spec s
  have mix : s.tickTimers.mix = s.mix := by simp
  intro p
  obtain ⟨⟨h1, h2, h3, h4, h5, h6, h7, h8⟩, k1, k2, k3, k4, k5, k6⟩ := h p
  have steps : HeldStep s.tickTimers p = HeldStep s p :=
    heldStep_congr (by rw [cue]) fun a _ => record_of_mem (by rw [cue]) p a
  have valid : tget s.tickTimers.cue.valid p = tget s.cue.valid p := by rw [cue]
  rw [PortSequenced, loaders, players, mix, steps, valid]
  have idle : ∀ x : PlayerState, x.tick = .idle ↔ x = .idle := fun x => by cases x <;> simp [PlayerState.tick]
  have paused : ∀ x : PlayerState, x.tick = .paused ↔ x = .paused := fun x => by cases x <;> simp [PlayerState.tick]
  refine ⟨⟨h1, h2, h3, h4, h5, by simpa using h6, fun l => (idle _).2 (h7 l), h8⟩, k1, k2, ?_, ?_, ?_, k6⟩
  · dsimp only
    rw [tick_pending]
    exact k3
  · dsimp only
    rw [idle]
    exact k4
  · dsimp only
    rw [paused]
    exact k5

theorem Sequenced.congr {s t : State} (h : Sequenced held s) (cue : t.cue = s.cue) (players : t.players = s.players)
    (staging : t.mix.staging = s.mix.staging) : Sequenced held t := fun p => by
  rw [PortSequenced, player_congr players, loader_congr cue, heldStep_of_cue cue, cue, staging]
  exact h p

theorem reset_sequenced {s : State} (h : Sequenced held s) (p : Port) : Sequenced held (portCleared s p) := by
  have players : Sequenced held ((portCleared s p).withCue s.cue) := fun q => by
    refine PlayerOutcome.sequenced (s := s) (t := (portCleared s p).withCue s.cue) ?_ rfl (h q)
    cases portCleared_player s p q with
    | same x g => exact .same x g
    | gone why x g => exact .gone why x g
    | applied g staged x gone => exact .applied g staged x gone
    | told awaits x g => exact .told awaits x g
  have cue : (portCleared s p).cue = (s.abandonLoad p).cue := (portCleared_blocks s p).1
  unfold State.abandonLoad at cue
  split at cue
  · have stopped := stop_sequenced players p .abandoned
    exact stopped.congr cue rfl rfl
  · exact players.congr cue rfl rfl

theorem lineMove_cue {s t : State} (m : LineMove s t) : t.cue = s.cue := by cases m <;> simp

theorem move_sequenced {s t : State} (m : Move s t) (h : Sequenced (s.ports.freeze = true) s) :
    Sequenced (s.ports.freeze = true) t := by
  cases m with
  | block m =>
    cases m with
    | notice w e f x => exact h
    | line m => exact fun p => PlayerOutcome.sequenced (lineMove_player m p) (lineMove_cue m) (h p)
    | load m => exact loadMove_sequenced m h
    | player m => exact playerMove_sequenced m h
    | meter m => exact h.congr m.frame.2.2.1 m.frame.2.2.2.1 (by rw [m.frame.2.1])
    | clock m => exact h.congr m.frame.2.2.1 m.frame.2.2.2.1 (by rw [m.frame.2.1])
    | stray p code r _ _ _ => exact h.congr (by simp) (by simp) (by simp)
    | tick => exact tick_sequenced h
  | reset p => exact reset_sequenced h p
  | _ => exact h.congr (by simp) (by simp) (by simp)

theorem frameMove_sequenced {s t : State} (m : FrameMove s t) (h : Sequenced (s.ports.freeze = true) s) :
    Sequenced (s.ports.freeze = true) t := by
  cases m with
  | other m => exact move_sequenced m h
  | _ => exact h

/-! ## The FREEZE level under moves -/

theorem lineMove_freeze {s t : State} (m : LineMove s t) : t.ports.freeze = s.ports.freeze := by
  cases m with
  | changeOwner l prev new actor _ _ => exact (State.changeOwner_spec s l prev new actor).2.2.2.2.2.1
  | clearAll => exact (clearAll_spec s).2.2.2.2.2.2.2.1
  | endWait l p why _ => exact (State.endWait_spec s l p why).2.2.2.1
  | _ => simp

theorem meterMove_freeze {s t : State} (m : MeterMove s t) : t.ports.freeze = s.ports.freeze := by
  cases m with
  | capture =>
    have spec := capture_spec s
    split at spec
    · rw [spec]
    · exact spec.2.2.1
  | abort p r _ => exact (State.deliver_spec (s.withMeter _) p r).2.1
  | _ => rfl

/-- No move touches the FREEZE level (R183). -/
theorem move_freeze {s t : State} (m : Move s t) : t.ports.freeze = s.ports.freeze := by
  cases m with
  | block m =>
    cases m with
    | notice w e f x => rfl
    | line m => exact lineMove_freeze m
    | load m => rw [m.frame.2.2.2.2.2.2.1]
    | player m => rw [m.frame.2.2.2.2.2.2.1]
    | meter m => exact meterMove_freeze m
    | clock m => rw [m.frame.2.2.2.2.2.2.1]
    | stray p code r _ _ _ => exact (State.deliver_spec s p r).2.1
    | tick => simp
  | writeNotTaken p v _ => exact (State.modPort_spec s p _).2
  | respond p more _ => exact (State.respond_spec s p more).2.1
  | complete p code args r _ => exact (State.complete_spec s p code args r).2.1
  | claimWaits p q l args w _ _ _ => simpa using (State.goWorking_spec (s.modLine l _) p 0x30 args).2.1
  | snapWaits p args _ => exact (State.goWorking_spec (s.withMeter _) p 0x68 args).2.1
  | markRead p => exact (State.modPort_spec s p _).2
  | reset p => exact (portCleared_ports s p).2
  | release p => exact (State.modPort_spec s p _).2

theorem frameMove_freeze {s t : State} (m : FrameMove s t) : t.ports.freeze = s.ports.freeze := by
  cases m with
  | other m => exact move_freeze m
  | _ => rfl

/-! ## The memory -/

theorem mem_write {m : Memory} {i : Nat} {v : Byte} {c : Host.Cell} (h : c ∈ m.write i v) : c ∈ m ∨ c.1 = i := by
  induction m with
  | nil =>
    unfold Memory.write at h
    split at h
    · cases h
    · exact .inr (by rw [List.mem_singleton.1 h])
  | cons x rest ih =>
    obtain ⟨a, b⟩ := x
    unfold Memory.write at h
    split at h
    · rcases List.mem_cons.1 h with rfl | later
      · exact .inl List.mem_cons_self
      · exact (ih later).imp (List.mem_cons_of_mem _) id
    · split at h
      · split at h
        · exact .inl (List.mem_cons_of_mem _ h)
        · rcases List.mem_cons.1 h with rfl | later
          · exact .inr rfl
          · exact .inl (List.mem_cons_of_mem _ later)
      · split at h
        · exact .inl h
        · rcases List.mem_cons.1 h with rfl | later
          · exact .inr rfl
          · exact .inl later

/-- A run of writes lists addresses that were listed, or its own. -/
theorem mem_writeBytes {bytes : List Byte} : ∀ {m : Memory} {i : Nat} {c : Host.Cell}, c ∈ m.writeBytes i bytes →
    c ∈ m ∨ (i ≤ c.1 ∧ c.1 < i + bytes.length) := by
  induction bytes with
  | nil => exact fun h => .inl h
  | cons v rest ih =>
    intro m i c h
    have length : (v :: rest).length = rest.length + 1 := rfl
    rcases ih h with written | later
    · rcases mem_write written with old | here
      · exact .inl old
      · exact .inr (by omega)
    · exact .inr (by omega)

theorem memoryLaw_of_mem {s t : State} (h : MemoryLaw s) (mem : t.cue.mem = s.cue.mem) : MemoryLaw t := by
  rw [MemoryLaw, mem]
  exact h

theorem loadMove_memory {s t : State} (m : LoadMove s t) (h : MemoryLaw s) (law : Sequenced held s) : MemoryLaw t := by
  cases m with
  | load p offset count ms o _ _ _ _ _ => exact memoryLaw_of_mem h (State.markRange_spec s p offset count false).2.1
  | chunk p args _ whole room =>
    refine ⟨Memory.wf_writeBytes _ _ _ h.1, fun c hc => ?_⟩
    rcases mem_writeBytes hc with old | ⟨-, below⟩
    · exact h.2 c old
    · have bound := (law p).1.1
      have := p.isLt
      unfold recordByte at below
      omega
  | finish p _ => exact memoryLaw_of_mem h (State.markRange_spec s p (s.loader p).offset (s.loader p).declared true).2.1
  | stop p o => exact memoryLaw_of_mem h rfl

theorem frameMove_memory {s t : State} (m : FrameMove s t) (h : MemoryLaw s) (law : Sequenced held s) : MemoryLaw t := by
  have kept : ∀ u : State, u.cue = s.cue → MemoryLaw u := fun u cue => memoryLaw_of_mem h (by rw [cue])
  cases m with
  | other m =>
    cases m with
    | block m =>
      cases m with
      | notice w e f x => exact h
      | line m => exact kept _ (lineMove_cue m)
      | load m => exact loadMove_memory m h law
      | player m => exact kept _ m.frame.2.2.1
      | meter m => exact kept _ m.frame.2.2.1
      | clock m => exact kept _ m.frame.2.2.1
      | stray p code r _ _ _ => exact kept _ (by simp)
      | tick => exact memoryLaw_of_mem h (by rw [(tickTimers_spec s).2.2.1])
    | reset p =>
      refine memoryLaw_of_mem h ?_
      rw [(portCleared_blocks s p).1]
      unfold State.abandonLoad
      split <;> rfl
    | _ => exact kept _ (by simp)
  | _ => exact h

/-! ## Every step -/

/-- What moves keep: the law with every PAUSED player under FREEZE, and the memory's form. -/
def FrozenLaw (s : State) : Prop := Sequenced (s.ports.freeze = true) s ∧ MemoryLaw s

theorem frameMove_frozenLaw {s t : State} (m : FrameMove s t) (h : FrozenLaw s) : FrozenLaw t := by
  refine ⟨?_, frameMove_memory m h.2 h.1⟩
  rw [frameMove_freeze m]
  exact frameMove_sequenced m h.1

theorem FrozenLaw.law {s : State} (h : FrozenLaw s) : SequenceLaw s ∧ MemoryLaw s :=
  ⟨(sequenceLaw_iff s).2 fun p => ⟨(h.1 p).1, (h.1 p).2.imp fun _ f => .inl f⟩, h.2⟩

/-- Where no player is PAUSED whatever lets one be PAUSED does not matter. -/
theorem Sequenced.awake {s : State} (h : Sequenced held s) (awake : ∀ p, (s.player p).state ≠ .paused) (held' : Prop) :
    Sequenced held' s := fun p => ⟨(h p).1, (h p).2.imp fun paused _ => absurd paused (awake p)⟩

theorem told_sequenced {s : State} (h : Sequenced held s) : Sequenced held s.tellPaused := by
  obtain ⟨players, -⟩ := State.tellPaused_spec s
  intro p
  have law := h p
  rw [PortSequenced, players, loader_congr (s := s) (by simp), heldStep_of_cue (s := s) (by simp)]
  split
  · rename_i paused
    obtain ⟨loader, addr, endAddr, pending, -⟩ := law
    have nothing : tget s.mix.staging p = none := by
      rw [paused] at pending
      simpa using pending
    refine ⟨loader.of_player fun i => ?_, ?_⟩
    · rw [paused] at i
      cases i
    · show PlayerLaw held _ _ (tget s.mix.staging p)
      rw [nothing]
      exact .plain addr endAddr (by simp) (by simp) (by simp)
  · exact law

/-- Settles O58: a player is PAUSED under FREEZE alone, and a release tells it or leaves it to the assertion that follows. -/
theorem sequenceAndMemoryLawsAreKept : Obligations.SequenceAndMemoryLawsAreKept := by
  intro s t law memory run
  rw [sequenceLaw_iff] at law
  unfold step at run
  split at run
  · cases run
    exact ⟨(sequenceLaw_iff s).2 law, memory⟩
  · rename_i c rest queue
    have start : Sequenced (s.ports.freeze = true ∨ c = .freezeAsserted) (s.withPending rest) := fun p =>
      ⟨(law p).1, (law p).2.imp fun _ h => by simpa [queue] using h⟩
    by_cases asserted : c = .freezeAsserted
    · subst asserted
      cases run
      exact ⟨(sequenceLaw_iff _).2 fun p => ⟨(start p).1, (start p).2.imp fun _ _ => .inl rfl⟩, memory⟩
    · have frozen : FrozenLaw (s.withPending rest) :=
        ⟨fun p => ⟨(start p).1, (start p).2.imp fun _ h => h.resolve_right asserted⟩, memory⟩
      cases course_of_exec run with
      | moves m => exact (kept_of_moves (fun _ _ m h => frameMove_frozenLaw m h) m.frameMoves frozen).law
      | frame rx m => exact (kept_of_moves (fun _ _ m h => frameMove_frozenLaw m h) m frozen).law
      | freeze => exact absurd rfl asserted
      | thaw follows => exact ⟨(sequenceLaw_iff _).2 fun p => ⟨(frozen.1 p).1, (frozen.1 p).2.imp fun _ _ => .inr follows⟩, memory⟩
      | told =>
        have awake : ∀ p, (((s.withPending rest).setFreeze false).tellPaused.player p).state ≠ .paused := fun p => by
          rw [(State.tellPaused_spec _).1 p]
          split
          · simp
          · assumption
        exact ⟨(sequenceLaw_iff _).2 ((told_sequenced (s := (s.withPending rest).setFreeze false) frozen.1).awake awake _), memory⟩
      | powerOn =>
        have reset : SequenceLaw State.reset := by decide
        have awake : ∀ p, (State.reset.player p).state ≠ .paused := by decide
        have form : MemoryLaw State.reset := by decide
        exact ⟨(sequenceLaw_iff _).2 (((sequenceLaw_iff _).1 reset).awake awake _), form⟩

end Sys2Proof.Proofs.Sequences


namespace Sys2Proof.Proofs.Events

open Sys2Proof Sys2Proof.Machine Sys2Proof.Safety Sys2Proof.Proofs.Courses Sys2Proof.Proofs.Effects

/-! ## The queue -/

/-- Settles O1: `step` reads the queue and hands the rest on. -/
theorem stepRunsTheFrontCommand : Obligations.StepRunsTheFrontCommand := by
  refine ⟨fun c rest s => rfl, fun s empty => ?_⟩
  unfold step
  rw [empty]

/-! ## Power-on reset -/

/-- The memory after power-on lists no byte (R113). -/
theorem reset_record (p : Port) (a : Nat) : State.reset.record p a = List.replicate 8 0 := rfl

theorem reset_powerOnValues : PowerOnValues State.reset := by
  refine ⟨by decide, by decide, by decide, by decide, by decide, by decide, by decide, by decide, by decide,
    fun p a => reset_record p a.val, fun p a => ?_, by decide, by decide, by decide, by decide, by decide, by decide, by decide,
    by decide, by decide, by decide, by decide, by decide, by decide, by decide, by decide⟩
  show tget (tget (tall (tall false)) p) a = false
  rw [tget_tall, tget_tall]

/-- Power-on reset leaves only pins, queue and counter (R185). -/
theorem poweredOn_values (s : State) : PowerOnValues (poweredOn s) := by
  obtain ⟨h1, h2, h3, h4, h5, h6, h7, h8, h9, h10, h11, h12, h13, h14, h15, h16, h17, h18, h19, h20, h21, h22, h23, h24, h25, -⟩ :=
    reset_powerOnValues
  refine ⟨h1, h2, h3, h4, h5, h6, h7, h8, h9, h10, h11, h12, h13, h14, h15, h16, h17, h18, h19, h20, h21, h22, h23, h24, h25,
    fun p => ?_⟩
  have port : (poweredOn s).port p = { CtrlPort.reset with held := (s.port p).held } := tget_tmake _ _
  rw [port]
  exact ⟨rfl, rfl, rfl⟩

/-- Settles O10: the power-on state is `State.reset` but for pins, queue and counter. -/
theorem powerOnResetSetsPowerOnValues : Obligations.PowerOnResetSetsPowerOnValues := by
  refine ⟨reset_powerOnValues, fun s => ⟨poweredOn s, rfl, poweredOn_values s, fun p => ?_, rfl, rfl, rfl⟩⟩
  have port : (poweredOn s).port p = { CtrlPort.reset with held := (s.port p).held } := tget_tmake _ _
  rw [port]

/-- Settles O60: each law evaluates on the power-on state. -/
theorem lawsHoldAtReset : Obligations.LawsHoldAtReset := by
  refine ⟨by decide, by decide, by decide, by decide, by decide, by decide, ?_, by decide, by decide, by decide⟩
  decide

/-! ## FREEZE and the release of a port reset -/

/-- No step of a PAUSED player is examined (R130, R139). -/
theorem standsAt_paused {s : State} {p : Port} (h : (s.player p).state = .paused) (kind : Nat) : s.standsAt p kind = false := by
  simp [State.standsAt, State.isStepping, h]

theorem takeStep_elsewhere {s : State} {p : Port} {kind : Nat} (h : s.standsAt p kind = false) (carry : StepBody → State) :
    s.takeStep p kind carry = .next s := by
  simp [State.takeStep, h]

/-- The commands of a PAUSED player's steps have no effect (R139, log 3). -/
theorem paused_waits {s : State} {p : Port} (h : (s.player p).state = .paused) {c : Instr} (step : StepOf p c) :
    exec c s = .next s := by
  have stays := standsAt_paused h
  have idle : s.isStepping p = false := by simp [State.isStepping, h]
  rcases step with ⟨k, hk⟩ | rfl | rfl
  · unfold stepOfKind at hk
    split at hk <;> cases hk
    all_goals exact takeStep_elsewhere (stays _) _
  · show Host.Outcome.next _ = _
    simp [idle]
  · show Host.Outcome.next _ = _
    simp [idle]

/-- Settles O9: each event writes one level, and a PAUSED player stands at no step. -/
theorem resetReleaseAndFreezeEvents : Obligations.ResetReleaseAndFreezeEvents := by
  refine ⟨fun p s => ?_, fun s => ?_, fun s alone => ?_, fun rest s queue => ?_, fun p c s paused step => paused_waits paused step⟩
  · obtain ⟨ports, freeze⟩ := State.modPort_spec s p fun x => { x with held := false }
    exact ⟨_, rfl, by rw [ports, if_pos rfl], fun q e => by rw [ports, if_neg e], ⟨freeze, rfl, rfl⟩,
      ⟨rfl, rfl, rfl, rfl, rfl, rfl⟩, rfl⟩
  · exact ⟨s.setFreeze true, rfl, rfl, ⟨rfl, rfl, rfl, rfl, rfl, rfl⟩, rfl, rfl, rfl⟩
  · have run : exec .freezeReleased s = .next (s.setFreeze false).tellPaused := by
      show Host.Outcome.next _ = _
      rw [if_neg alone]
    exact ⟨_, run, rfl, (State.tellPaused_spec (s.setFreeze false)).1, rfl, rfl, rfl, rfl, rfl, rfl, rfl, rfl⟩
  · have first : step s = .next ((s.withPending (.freezeAsserted :: rest)).setFreeze false) := by
      unfold step
      rw [queue]
      rfl
    exact ⟨_, _, first, rfl, rfl, rfl, ⟨rfl, rfl, rfl, rfl, rfl, rfl⟩, ⟨rfl, rfl, rfl, rfl, rfl, rfl⟩, rfl, rfl, rfl⟩

end Sys2Proof.Proofs.Events


namespace Sys2Proof.Proofs.Link

open Sys2Proof Sys2Proof.Machine Sys2Proof.Safety Sys2Proof.Proofs.Courses Sys2Proof.Proofs.Effects
  Sys2Proof.Proofs.Refusals

/-! ## Command bytes -/

/-- A task row and its command: the bytes of the command, the command of the code, and the length that fits (R176, R186). -/
theorem taskRow_link {c : Instr} {row : TaskRow} (h : taskRow c = some row) :
    encodeLink c = some (row.port, writeTaskBytes row.code row.args) ∧ taskOfCode row.port row.code row.args = c ∧
    c.wellFormed = argsFit row.args := by
  cases c <;> cases h <;> exact ⟨rfl, rfl, rfl⟩

/-- A code outside R186 is an unknown task (R179). -/
theorem taskOfCode_unknown (p : Port) {code : Byte} (h : knownTaskCode code = false) (args : List Byte) :
    taskOfCode p code args = .unknownTask p code args := by
  unfold taskOfCode
  split
  case h_29 => rfl
  all_goals
    rename_i e
    simp [knownTaskCode, e] at h

/-- The argument length crosses the port in one byte (R176). -/
theorem argsFit_length {args : List Byte} (h : argsFit args = true) : (BitVec.ofNat 8 args.length : Byte).toNat = args.length := by
  have fits : args.length ≤ 255 := by simpa [argsFit] using h
  rw [BitVec.toNat_ofNat, Nat.mod_eq_of_lt (by omega)]

theorem decodeLink_writeTask (p : Port) (code n : Byte) (more : List Byte) :
    decodeLink p (0x01 :: code :: n :: more) =
      if more.length < n.toNat then none else some (taskOfCode p code (more.take n.toNat)) := rfl

/-- The bytes of a WRITE-TASK are read back as the task of their code. -/
theorem decodeLink_writeTaskBytes (p : Port) (code : Byte) {args : List Byte} (h : argsFit args = true) (more : List Byte) :
    decodeLink p (writeTaskBytes code args ++ more) = some (taskOfCode p code args) := by
  show decodeLink p (0x01 :: code :: BitVec.ofNat 8 args.length :: (args ++ more)) = _
  rw [decodeLink_writeTask, argsFit_length h, if_neg (by simp), List.take_left]

/-- A WRITE-TASK that is cut short is read as nothing. -/
theorem decodeLink_writeTask_short (p : Port) (code : Byte) {args : List Byte} (h : argsFit args = true) {k : Nat}
    (short : k < (writeTaskBytes code args).length) : decodeLink p ((writeTaskBytes code args).take k) = none := by
  have length : (writeTaskBytes code args).length = args.length + 3 := rfl
  match k with
  | 0 => rfl
  | 1 => rfl
  | 2 => rfl
  | k + 3 =>
    show decodeLink p (0x01 :: code :: BitVec.ofNat 8 args.length :: args.take k) = none
    rw [decodeLink_writeTask, argsFit_length h, if_pos]
    rw [List.length_take]
    omega

/-- A transaction of one command byte is read back, and as nothing before that byte. -/
theorem single_byte_roundTrip {p : Port} {cmd : Byte} {c : Instr} (read : ∀ more, decodeLink p (cmd :: more) = some c) :
    (∀ more, decodeLink p ([cmd] ++ more) = some c) ∧ ∀ k, k < [cmd].length → decodeLink p ([cmd].take k) = none := by
  refine ⟨read, fun k hk => ?_⟩
  obtain rfl : k = 0 := by
    rw [List.length_singleton] at hk
    omega
  rfl

theorem writeTask_roundTrip {p : Port} {code : Byte} {args : List Byte} {c : Instr} (task : taskOfCode p code args = c)
    (fits : argsFit args = true) :
    (∀ more, decodeLink p (writeTaskBytes code args ++ more) = some c) ∧
    ∀ k, k < (writeTaskBytes code args).length → decodeLink p ((writeTaskBytes code args).take k) = none :=
  ⟨fun more => by rw [decodeLink_writeTaskBytes p code fits, task], fun _ => decodeLink_writeTask_short p code fits⟩

/-- A transaction that is no task of R186 (R176). -/
theorem transaction_of_no_task {c : Instr} (task : taskRow c = none) {p : Port} {bytes : List Byte}
    (link : encodeLink c = some (p, bytes)) :
    (∃ code args, c = .unknownTask p code args ∧ bytes = writeTaskBytes code args) ∨ (c = .readResult p ∧ bytes = [0x02]) ∨
    (∃ cmd, c = .readStatus p cmd ∧ bytes = [cmd]) ∨ (c = .abort p ∧ bytes = [0x04]) := by
  cases c with
  | unknownTask q code args =>
    cases link
    exact .inl ⟨code, args, rfl, rfl⟩
  | readResult q =>
    cases link
    exact .inr (.inl ⟨rfl, rfl⟩)
  | readStatus q cmd =>
    cases link
    exact .inr (.inr (.inl ⟨cmd, rfl, rfl⟩))
  | abort q =>
    cases link
    exact .inr (.inr (.inr ⟨rfl, rfl⟩))
  | _ => simp [taskRow, encodeLink] at task link

theorem roundTrip_of_no_task {c : Instr} (task : taskRow c = none) {p : Port} {bytes : List Byte} (wf : c.wellFormed = true)
    (link : encodeLink c = some (p, bytes)) :
    (∀ more, decodeLink p (bytes ++ more) = some c) ∧ ∀ k, k < bytes.length → decodeLink p (bytes.take k) = none := by
  rcases transaction_of_no_task task link with ⟨code, args, rfl, rfl⟩ | ⟨rfl, rfl⟩ | ⟨cmd, rfl, rfl⟩ | ⟨rfl, rfl⟩
  · simp only [Instr.wellFormed, Bool.and_eq_true, Bool.not_eq_true'] at wf
    exact writeTask_roundTrip (taskOfCode_unknown _ wf.2 args) wf.1
  · exact single_byte_roundTrip fun _ => rfl
  · simp only [Instr.wellFormed, Bool.and_eq_true, bne_iff_ne] at wf
    obtain ⟨⟨write, result⟩, abort⟩ := wf
    exact single_byte_roundTrip fun more => (if_neg write).trans ((if_neg result).trans (if_neg abort))
  · exact single_byte_roundTrip fun _ => rfl

/-- Settles O3: a task's bytes carry their own length, and the other transactions are one byte long. -/
theorem linkTransactionsRoundTrip : Obligations.LinkTransactionsRoundTrip := by
  refine ⟨fun c p bytes wf link => ?_, fun c row h => (taskRow_link h).1⟩
  cases task : taskRow c with
  | some row =>
    obtain ⟨bytes_of, code_of, fits⟩ := taskRow_link task
    rw [bytes_of] at link
    cases link
    exact writeTask_roundTrip code_of (fits ▸ wf)
  | none => exact roundTrip_of_no_task task wf link

/-! ## Intake -/

/-- Settles O4: the intake's checks stand in front of the block's. -/
theorem intakeChecksRefuseTasks : Obligations.IntakeChecksRefuseTasks := by
  refine ⟨fun p code args s ready _ => ?_, fun c row s task ready => ?_⟩
  · exact ⟨_, rfl, State.writeTask_refuses ready rfl (.inl rfl) rfl code args⟩
  · obtain ⟨body, run, -⟩ := task_ends task
    simp only [RefusedByFirst, forall_firstCheck_cons, Bool.not_eq_true', Bool.not_eq_false', Bool.and_eq_true]
    refine ⟨fun wrong => ?_, fun fits => ⟨fun frozen => ?_, fun _ => forall_firstCheck_nil⟩⟩
    · exact ⟨_, run s, writeTask_refused_of_intake ready (intake_wrong_length _ wrong _ _) row.code row.args⟩
    · refine ⟨_, run s, writeTask_refused_of_intake ready ?_ row.code row.args⟩
      rw [frozen.1]
      exact intake_frozen _ fits ((State.taken_port s _).2.trans frozen.2) _

/-! ## Responses -/

/-- The end of a transaction: the port's response is the status byte and what the command answers (R176). -/
theorem respond_answers (u : State) (p : Port) (more : List Byte) :
    (u.respond p more).port p = { u.port p with response := (u.respond p more).statusByte p :: more } ∧
    (∀ q, q ≠ p → (u.respond p more).port q = u.port q) ∧ Aside u (u.respond p more) ∧ BlocksKept u (u.respond p more) ∧
    NoticeDriven u (u.respond p more) := by
  obtain ⟨ports, freeze, driven⟩ := State.respond_spec u p more
  refine ⟨?_, fun q e => by rw [ports, if_neg e], ⟨freeze, by simp, by simp⟩, ⟨by simp, by simp, by simp, by simp, by simp, by simp⟩, driven⟩
  rw [ports, if_pos rfl, State.statusByte_respond]

/-- A transaction that writes a task. -/
theorem writePort_exec {c : Instr} {p : Port} (h : writePort c = some p) :
    ∃ code args ok changing, ∃ body : State → TaskEnd, ∀ s, exec c s = .next (s.writeTask p code args ok changing body) := by
  have rows : ∀ c', (taskRow c').map TaskRow.port = some p → ∃ code args ok changing, ∃ body : State → TaskEnd,
      ∀ s, exec c' s = .next (s.writeTask p code args ok changing body) := fun c' h => by
    obtain ⟨row, task, rfl⟩ := Option.map_eq_some_iff.1 h
    obtain ⟨body, run, -⟩ := task_ends task
    exact ⟨_, _, _, _, body, run⟩
  cases c with
  | unknownTask q code args =>
    cases h
    exact ⟨_, _, _, _, _, fun s => rfl⟩
  | _ => exact rows _ h

/-- Every transaction writes a task, or is one of the three others (R176). -/
theorem transaction_cases {c : Instr} {p : Port} (h : transactionPort c = some p) :
    writePort c = some p ∨ c = .readResult p ∨ (∃ cmd, c = .readStatus p cmd) ∨ c = .abort p := by
  obtain ⟨⟨q, bytes⟩, link, rfl⟩ := Option.map_eq_some_iff.1 h
  cases task : taskRow c with
  | some row =>
    have same := link.symm.trans (taskRow_link task).1
    cases same
    refine .inl ?_
    cases c <;> cases task <;> rfl
  | none =>
    rcases transaction_of_no_task task link with ⟨code, args, rfl, -⟩ | ⟨rfl, -⟩ | ⟨cmd, rfl, -⟩ | ⟨rfl, -⟩
    · exact .inl rfl
    · exact .inr (.inl rfl)
    · exact .inr (.inr (.inl ⟨cmd, rfl⟩))
    · exact .inr (.inr (.inr rfl))

/-- A held port takes no transaction (R184). -/
theorem held_takes_nothing {c : Instr} {p : Port} {s : State} (h : transactionPort c = some p) (held : (s.port p).held = true) :
    exec c s = .next s := by
  rcases transaction_cases h with write | rfl | ⟨cmd, rfl⟩ | rfl
  · obtain ⟨code, args, ok, changing, body, run⟩ := writePort_exec write
    rw [run, State.writeTask_held held]
  · exact congrArg Host.Outcome.next (if_pos held)
  · exact congrArg Host.Outcome.next (if_pos held)
  · exact congrArg Host.Outcome.next (if_pos held)

/-- Settles O5: the two ways in which a WRITE-TASK is not taken stand before everything else. -/
theorem transactionsThatAreNotTaken : Obligations.TransactionsThatAreNotTaken := by
  refine ⟨fun c p s => held_takes_nothing, fun c p s write held working => ?_⟩
  obtain ⟨code, args, ok, changing, body, run⟩ := writePort_exec write
  obtain ⟨ports, freeze⟩ := State.modPort_spec s p fun x => { x with writeNotTaken := true }
  obtain ⟨self, others, aside, blocks, driven⟩ := respond_answers (s.modPort p fun x => { x with writeNotTaken := true }) p []
  refine ⟨_, run s, ?_⟩
  rw [State.writeTask_working held working]
  refine ⟨?_, fun q e => ?_, ?_, ?_, ?_⟩
  · rw [self, ports, if_pos rfl]
  · rw [others q e, ports, if_neg e]
  · exact ⟨aside.1.trans freeze, aside.2⟩
  · exact blocks
  · exact driven

/-! ## Reads -/

theorem beBytes_one (n : Nat) : beBytes 1 n = one n := by simp [beBytes, one]

theorem beBytes_two (n : Nat) : beBytes 2 n = two n := by simp [beBytes, two]

theorem beBytes_three (n : Nat) : beBytes 3 n = three n := by simp [beBytes, three]

/-- The result record in the words of the statements (R187). -/
theorem recordBytes_eq (x : Slot) : x.recordBytes = recordOf x := by
  cases x <;> simp [Slot.recordBytes, recordOf, beBytes_one, beBytes_two, one, two]

/-- The unread mark cleared, and the Notice Unit told (R181). -/
theorem markRead_spec (s : State) (p : Port) :
    (∀ q, (s.markRead p).port q = if q = p then { s.port p with unread := false } else s.port q) ∧
    (s.markRead p).ports.freeze = s.ports.freeze ∧
    (∀ q, tget (s.markRead p).notice.unreadView q = if q = p then false else tget s.notice.unreadView q) ∧
    (s.markRead p).notice = { s.notice with unreadView := (s.markRead p).notice.unreadView } := by
  obtain ⟨ports, freeze⟩ := State.modPort_spec s p fun x => { x with unread := false }
  exact ⟨ports, freeze, fun q => tget_tset _ _ _ _, rfl⟩

theorem readResult_answers (p : Port) (s : State) (held : (s.port p).held = false) :
    ∃ t, exec (.readResult p) s = .next t ∧
      t.port p = { s.port p with unread := false, response := t.statusByte p :: recordOf (s.port p).slot } ∧
      (∀ q, q ≠ p → t.port q = s.port q) ∧ UnreadTold s t p false ∧ Aside s t ∧ BlocksKept s t ∧
      t.notice = { s.notice with unreadView := t.notice.unreadView, line := t.notice.line } ∧ NoticeLinesFollow t := by
  have run : exec (.readResult p) s = .next ((s.markRead p).respond p (recordOf (s.port p).slot)) := by
    rw [← recordBytes_eq]
    exact congrArg Host.Outcome.next (if_neg (by simp [held]))
  obtain ⟨ports, freeze, views, notice⟩ := markRead_spec s p
  obtain ⟨self, others, aside, blocks, driven, follow⟩ := respond_answers (s.markRead p) p (recordOf (s.port p).slot)
  refine ⟨_, run, ?_, fun q e => ?_, ⟨?_, fun q e => ?_⟩, ⟨aside.1.trans freeze, aside.2⟩, blocks, ?_, follow⟩
  · rw [self, ports, if_pos rfl]
  · rw [others q e, ports, if_neg e]
  · rw [driven]
    exact (views p).trans (if_pos rfl)
  · rw [driven]
    exact (views q).trans (if_neg e)
  · rw [driven, notice]

theorem readStatus_answers (p : Port) (cmd : Byte) (s : State) (held : (s.port p).held = false) :
    ∃ t, exec (.readStatus p cmd) s = .next t ∧ t.port p = { s.port p with response := [t.statusByte p] } ∧
      (∀ q, q ≠ p → t.port q = s.port q) ∧ Aside s t ∧ BlocksKept s t ∧ NoticeDriven s t := by
  have run : exec (.readStatus p cmd) s = .next (s.respond p []) := congrArg Host.Outcome.next (if_neg (by simp [held]))
  obtain ⟨self, others, aside, blocks, driven⟩ := respond_answers s p []
  exact ⟨_, run, self, others, aside, blocks, driven⟩

/-! ## The status byte -/

/-- Seven items in the bits of R187: a number up to 3 in the top two bits, and six flags. -/
theorem statusBits (n : Fin 4) (b5 b4 b3 b2 b1 b0 : Bool) :
    let x : Byte := BitVec.ofNat 8 (n.val * 64 + bitAt 5 b5 + bitAt 4 b4 + bitAt 3 b3 + bitAt 2 b2 + bitAt 1 b1 + bitAt 0 b0)
    x.toNat / 64 = n.val ∧ x.getLsbD 5 = b5 ∧ x.getLsbD 4 = b4 ∧ x.getLsbD 3 = b3 ∧ x.getLsbD 2 = b2 ∧ x.getLsbD 1 = b1 ∧
    x.getLsbD 0 = b0 := by
  revert n b5 b4 b3 b2 b1 b0
  decide

theorem eventsPending_iff (s : State) (p : Port) :
    s.eventsPending p = true ↔ ∃ l, tget (tget s.notice.events p) l ≠ EventSet.empty := by
  have any : ∀ e : EventSet, e.any = true ↔ e ≠ EventSet.empty := fun e => by
    obtain ⟨a, b, c, d⟩ := e
    revert a b c d
    decide
  simp only [State.eventsPending, List.any_eq_true, List.mem_finRange, true_and, any]

theorem watchedAttention_iff (s : State) (p : Port) :
    s.watchedAttention p = true ↔ ∃ l, tget (tget s.notice.watch p) l = true ∧ tget s.notice.latchView l = true := by
  simp only [State.watchedAttention, List.any_eq_true, List.mem_finRange, true_and, Bool.and_eq_true]

theorem slotCode_eq (x : CtrlPort) : x.slotCode < 4 ∧ x.slotCode = (match x.slot with
    | .empty => 0
    | .working _ _ => 1
    | .done _ _ _ => if x.unread then 3 else 2) := by
  refine ⟨?_, rfl⟩
  unfold CtrlPort.slotCode
  (repeat' split) <;> omega

/-- The byte carries its items in the bits of R187. -/
theorem statusByte_items (p : Port) (s : State) :
    (s.statusByte p).toNat / 64 = (match (s.port p).slot with
      | .empty => 0
      | .working _ _ => 1
      | .done _ _ _ => if (s.port p).unread then 3 else 2) ∧
    ((s.statusByte p).getLsbD 5 = true ↔ ∃ l, tget (tget s.notice.events p) l ≠ EventSet.empty) ∧
    ((s.statusByte p).getLsbD 4 = true ↔ ∃ l, tget (tget s.notice.watch p) l = true ∧ tget s.notice.latchView l = true) ∧
    ((s.statusByte p).getLsbD 3 = true ↔ p = 0 ∧ s.notice.refChange = true) ∧
    (s.statusByte p).getLsbD 2 = (s.port p).writeNotTaken ∧
    (s.statusByte p).getLsbD 1 = s.ports.freeze ∧
    ((s.statusByte p).getLsbD 0 = true ↔ s.clock.generator = .holdover) := by
  obtain ⟨small, code⟩ := slotCode_eq (s.port p)
  obtain ⟨top, h5, h4, h3, h2, h1, h0⟩ := statusBits ⟨(s.port p).slotCode, small⟩ (s.eventsPending p) (s.watchedAttention p)
    (s.referenceChange p) (s.port p).writeNotTaken s.ports.freeze (s.clock.generator == .holdover)
  refine ⟨top.trans code, ?_, ?_, ?_, h2, h1, ?_⟩
  · rw [← eventsPending_iff]
    exact Bool.eq_iff_iff.1 h5
  · rw [← watchedAttention_iff]
    exact Bool.eq_iff_iff.1 h4
  · refine (Bool.eq_iff_iff.1 h3).trans ?_
    simp [State.referenceChange]
  · refine (Bool.eq_iff_iff.1 h0).trans ?_
    simp

/-! ## The bytes of a transaction -/

/-- A WRITE-TASK that is taken ends with its response, its port not held. -/
theorem writeTask_responds {s : State} {p : Port} (held : (s.port p).held = false) (code : Byte) (args : List Byte)
    {ok changing : Bool} {body : State → TaskEnd} (h : ∀ u, ok = true → Ready u p → TaskEnds u p code args (body u)) :
    ∃ u, s.writeTask p code args ok changing body = State.respond u p [] ∧ (u.port p).held = false := by
  by_cases working : (s.port p).slot.isWorking = true
  · refine ⟨_, State.writeTask_working held working code args ok changing body, ?_⟩
    rw [(State.modPort_spec s p _).1, if_pos rfl]
    exact held
  · have ready : Ready s p := ⟨held, by simpa using working⟩
    have ready' : Ready (s.taken p) p := by
      rw [Ready, (State.taken_port s p).1, if_pos rfl]
      exact ready
    have ended : TaskEnds (s.taken p) p code args ((s.taken p).intake ok changing body) := by
      unfold State.intake
      split
      · exact .inl (completes_refuse _ _ _)
      · split
        · exact .inl (completes_refuse _ _ _)
        · exact h _ (by simp_all) ready'
    refine ⟨_, State.writeTask_ready ready code args ok changing body, ?_⟩
    show ((((s.taken p).intake ok changing body).state.settle p code args
      ((s.taken p).intake ok changing body).result).port p).held = false
    generalize (s.taken p).intake ok changing body = e at ended
    obtain ⟨t, result⟩ := e
    rcases ended with ⟨moves, done⟩ | ⟨goes, ports, -⟩
    · obtain ⟨r, rfl⟩ := Option.isSome_iff_exists.1 done
      show ((t.complete p code args r).port p).held = false
      rw [(State.complete_spec t p code args r).1, if_pos rfl]
      exact (moves.ready ready').1
    · obtain rfl : result = none := goes
      show ((t.goWorking p code args).port p).held = false
      rw [(State.goWorking_spec t p code args).1, if_pos rfl]
      rw [show t.port p = (s.taken p).port p from port_congr ports p]
      exact ready'.1

theorem abortTask_held {s : State} {p : Port} (held : (s.port p).held = false) (code : Byte) :
    ((s.abortTask p code).port p).held = false := by
  unfold State.abortTask
  split
  · rw [(State.deliver_spec _ p _).1, if_pos rfl, (delivered_slot _ _).1]
    exact held
  · split
    · rename_i l _
      rw [(State.endWait_spec s l p .aborted).2.2.1, if_pos rfl, (delivered_slot _ _).1]
      exact held
    · rw [(State.deliver_spec s p _).1, if_pos rfl, (delivered_slot _ _).1]
      exact held

/-- A transaction that is taken ends with its response, its port not held (R176). -/
theorem transaction_responds {c : Instr} {p : Port} {bytes : List Byte} {s : State} (link : encodeLink c = some (p, bytes))
    (held : (s.port p).held = false) :
    ∃ u more, exec c s = .next (State.respond u p more) ∧ (u.port p).held = false := by
  cases task : taskRow c with
  | some row =>
    cases link.symm.trans (taskRow_link task).1
    obtain ⟨body, run, ended⟩ := task_ends task
    obtain ⟨u, ends, held⟩ := writeTask_responds (changing := row.changing) held row.code row.args ended
    exact ⟨u, [], (run s).trans (by rw [ends]), held⟩
  | none =>
    rcases transaction_of_no_task task link with ⟨code, args, rfl, -⟩ | ⟨rfl, -⟩ | ⟨cmd, rfl, -⟩ | ⟨rfl, -⟩
    · obtain ⟨u, ends, held⟩ := writeTask_responds (ok := true) (changing := false) held code args
        (body := fun t => t.refuse .unknownTask 0) fun u _ _ => .inl (completes_refuse u _ _)
      exact ⟨u, [], congrArg Host.Outcome.next ends, held⟩
    · refine ⟨s.markRead p, _, congrArg Host.Outcome.next (if_neg (by simp [held])), ?_⟩
      rw [(markRead_spec s p).1, if_pos rfl]
      exact held
    · exact ⟨s, [], congrArg Host.Outcome.next (if_neg (by simp [held])), held⟩
    · cases slot : (s.port p).slot with
      | working code args =>
        refine ⟨s.abortTask p code, [1], congrArg Host.Outcome.next ((if_neg (by simp [held])).trans ?_), abortTask_held held code⟩
        rw [slot]
      | empty =>
        refine ⟨s, [0], congrArg Host.Outcome.next ((if_neg (by simp [held])).trans ?_), held⟩
        rw [slot]
      | done code args r =>
        refine ⟨s, [0], congrArg Host.Outcome.next ((if_neg (by simp [held])).trans ?_), held⟩
        rw [slot]

/-- What is sent in a transaction whose response is known (R176). -/
theorem sends_of_response {t : State} {c : Instr} {p : Port} {bytes : List Byte} (link : encodeLink c = some (p, bytes))
    (held : (t.port p).held = false) {x : Byte} {answer : List Byte} (response : (t.port p).response = x :: answer) (k : Nat) :
    t.sends c k = some (if k < bytes.length then 0x00 else if k = bytes.length then x
      else answer.getD (k - bytes.length - 1) 0x00) := by
  simp only [State.sends, link, held, response, Bool.false_eq_true, if_false]
  split
  · rfl
  · rename_i after
    split
    · rename_i e
      rw [e, Nat.sub_self]
      rfl
    · rename_i e
      obtain ⟨j, hj⟩ : ∃ j, k - bytes.length = j + 1 := ⟨k - bytes.length - 1, by omega⟩
      rw [hj]
      rfl

/-- Settles O6: every transaction ends with `respond`, which puts the status byte in front of the answer. -/
theorem readsAnswerRecordAndStatusByte : Obligations.ReadsAnswerRecordAndStatusByte := by
  refine ⟨readResult_answers, readStatus_answers, statusByte_items, fun c p bytes s link held => ?_,
    fun c p bytes s link held => ?_⟩
  · obtain ⟨u, more, run, released⟩ := transaction_responds link held
    obtain ⟨self, -⟩ := respond_answers u p more
    have response : ((u.respond p more).port p).response = (u.respond p more).statusByte p :: more := by rw [self]
    refine ⟨_, more, run, response, fun k => sends_of_response link ?_ response k⟩
    rw [self]
    exact released
  · refine ⟨s, held_takes_nothing (by rw [transactionPort, link]; rfl) held, fun k => ?_⟩
    simp only [State.sends, link, held, if_true]

/-! ## ABORT -/

/-- A completion delivered to a WORKING slot (R178). -/
theorem delivered_working {x : CtrlPort} {code : Byte} {args : List Byte} (h : x.slot = .working code args) (r : Result) :
    delivered x r = { x with slot := .done code args r, unread := true } := by
  simp [delivered, h]

/-- ABORT of a waiting task: its block's end of it, then the response (R182). -/
theorem abort_working {s : State} {p : Port} (held : (s.port p).held = false) {code : Byte} {args : List Byte}
    (slot : (s.port p).slot = .working code args) : exec (.abort p) s = .next ((s.abortTask p code).respond p [1]) := by
  refine congrArg Host.Outcome.next ((if_neg (by simp [held])).trans ?_)
  rw [slot]

theorem abort_ready {s : State} {p : Port} (ready : Ready s p) : exec (.abort p) s = .next (s.respond p [0]) := by
  refine congrArg Host.Outcome.next ((if_neg (by simp [ready.1])).trans ?_)
  have idle := ready.2
  cases slot : (s.port p).slot with
  | working code args => simp [slot, Slot.isWorking] at idle
  | empty => rfl
  | done code args r => rfl

/-- The port, the marks and the notices after a waiting task is ended and the response sent. -/
theorem ended_answers {s u : State} {p : Port} {code : Byte} {args : List Byte} {r : Result} (held : (s.port p).held = false)
    (slot : (s.port p).slot = .working code args)
    (ports : ∀ q, u.port q = if q = p then delivered (s.port p) r else s.port q) (freeze : u.ports.freeze = s.ports.freeze)
    (views : ∀ q, tget u.notice.unreadView q =
      if q = p ∧ (s.port p).slot.isWorking = true then true else tget s.notice.unreadView q)
    (notice : u.notice = { s.notice with unreadView := u.notice.unreadView }) (free : u.free = s.free)
    (pending : u.pending = s.pending) (more : List Byte) :
    let t := u.respond p more
    t.port p = ⟨.done code args r, true, (s.port p).writeNotTaken, false, t.statusByte p :: more⟩ ∧
    (∀ q, q ≠ p → t.port q = s.port q) ∧ UnreadTold s t p true ∧ Aside s t ∧
    t.notice = { s.notice with unreadView := t.notice.unreadView, line := t.notice.line } ∧ NoticeLinesFollow t ∧
    BlocksKept u t := by
  obtain ⟨self, others, aside, blocks, driven, follow⟩ := respond_answers u p more
  have working : (s.port p).slot.isWorking = true := by rw [slot]; rfl
  refine ⟨?_, fun q e => ?_, ⟨?_, fun q e => ?_⟩, ⟨?_, ?_, ?_⟩, ?_, follow, blocks⟩
  · rw [self, ports, if_pos rfl, delivered_working slot]
    simp [held]
  · rw [others q e, ports, if_neg e]
  · rw [driven]
    exact (views p).trans (if_pos ⟨rfl, working⟩)
  · rw [driven]
    exact (views q).trans (if_neg fun c => e c.1)
  · exact aside.1.trans freeze
  · exact aside.2.1.trans free
  · exact aside.2.2.trans pending
  · rw [driven, notice]

theorem waitLine_eq {s : State} {p : Port} {l : Line} (only : ∀ k, (tget (s.line k).waiters p).isSome = true ↔ k = l) :
    s.waitLine p = some l := by
  unfold State.waitLine
  cases h : (List.finRange 24).find? fun k => (tget (s.line k).waiters p).isSome with
  | none => exact absurd ((only l).2 rfl) (List.find?_eq_none.1 h l (List.mem_finRange l))
  | some k =>
    have waits := List.find?_some (p := fun k => (tget (s.line k).waiters p).isSome) h
    rw [(only k).1 waits]

/-- Settles O7: ABORT ends the wait that its slot stands for, and answers alone where no task waits. -/
theorem abortEndsTheWaitingTask : Obligations.AbortEndsTheWaitingTask := by
  refine ⟨fun p args s held slot => ?_, fun p l code args s held other slot only => ?_, fun p s ready => ?_⟩
  · let u := (s.withMeter { s.meter with waiting := tset s.meter.waiting p false }).deliver p
      (ends .ended .aborted (portDetail s.snapHolder))
    obtain ⟨ports, freeze, views, notice⟩ := State.deliver_spec (s.withMeter { s.meter with waiting := tset s.meter.waiting p false }) p
      (ends .ended .aborted (portDetail s.snapHolder))
    obtain ⟨self, others, told, aside, keeps, follow, table, mix, cue, players, meter, clock⟩ :=
      ended_answers (u := u) held slot ports freeze views notice (by simp [u]) (by simp [u]) [1]
    have after : (u.respond p [1]).meter = { s.meter with waiting := tset s.meter.waiting p false } :=
      meter.trans (by simp [u])
    have run : exec (.abort p) s = .next (u.respond p [1]) := abort_working held slot
    refine ⟨_, run, self, others, told, aside, by rw [after], ?_, fun q e => ?_, table.trans (by simp [u]),
      mix.trans (by simp [u]), cue.trans (by simp [u]), players.trans (by simp [u]), clock.trans (by simp [u]), keeps, follow⟩
    · rw [after]
      exact tget_tset_self _ _ _
    · rw [after]
      exact tget_tset_of_ne _ _ e
  · obtain ⟨⟨table, kept⟩, line, ports, freeze, views, notice⟩ := State.endWait_spec s l p .aborted
    obtain ⟨self, others, told, aside, keeps, follow, table', mix, cue, players, meter, clock⟩ :=
      ended_answers (u := s.endWait l p .aborted) held slot ports freeze views notice (by simp) (by simp) [1]
    have run : exec (.abort p) s = .next ((s.endWait l p .aborted).respond p [1]) := by
      rw [abort_working held slot, State.abortTask, if_neg other, waitLine_eq only]
    have same := line_congr table'
    refine ⟨_, run, self, others, told, aside, ⟨?_, fun k e => ?_⟩, ?_, fun q => ?_, mix.trans (by simp), cue.trans (by simp),
      players.trans (by simp), meter.trans (by simp), clock.trans (by simp), keeps, follow⟩
    · rw [table']
      exact table
    · rw [same, kept k e]
    · rw [same, line]
    · rw [same, line]
      exact tget_tset _ _ _ _
  · obtain ⟨self, others, aside, blocks, driven⟩ := respond_answers s p [0]
    exact ⟨_, abort_ready ready, self, others, aside, blocks, driven⟩

end Sys2Proof.Proofs.Link


namespace Sys2Proof.Proofs.Reset

open Sys2Proof Sys2Proof.Machine Sys2Proof.Safety Sys2Proof.Proofs.Courses Sys2Proof.Proofs.Effects
  Sys2Proof.Proofs.Refusals

/-! ## The assertion of a port's reset line -/

/-- The holder of a talk slot in the words of the statements (R105). -/
theorem talker_any (talk : Option TalkSlot) (p : Port) : talk.any (fun t => t.talker == p) = decide (talk.map TalkSlot.talker = some p) := by
  cases talk with
  | none => simp
  | some x => by_cases e : x.talker = p <;> simp [e]

/-- The bank after the clearing of talk slots, but for the four tables that it writes. -/
theorem talkCleared_frame (m : MixEngine) (sel : Line → Bool) :
    m.talkCleared sel = { m with
      talkLevel := (m.talkCleared sel).talkLevel, trimDuck := (m.talkCleared sel).trimDuck, trim := (m.talkCleared sel).trim } := by
  have stored : (m.talkCleared sel).storedTrim = m.storedTrim := table_ext fun k => (MixEngine.talkCleared_spec m sel k).1
  simp only [MixEngine.talkCleared, MixEngine.writeTalkLevels, MixEngine.writeTrims] at stored ⊢
  rw [stored]

/-- What a port reset makes of the bank (R83, R100, R105, R140). -/
theorem portCleared_bank (s : State) (p : Port) :
    (portCleared s p).mix = { s.mix with
      talkLevel := (portCleared s p).mix.talkLevel, trimDuck := (portCleared s p).mix.trimDuck
      trim := (portCleared s p).mix.trim, staging := (portCleared s p).mix.staging } ∧
    ∀ l, if (s.line l).talk.map TalkSlot.talker = some p then
        tget (portCleared s p).mix.talkLevel l = aimed (tget s.mix.talkLevel l) 0 ∧
        tget (portCleared s p).mix.trimDuck l = 32768 ∧
        tget (portCleared s p).mix.trim l = aimed (tget s.mix.trim l) (tget s.mix.storedTrim l)
      else tget (portCleared s p).mix.talkLevel l = tget s.mix.talkLevel l ∧
        tget (portCleared s p).mix.trimDuck l = tget s.mix.trimDuck l ∧
        tget (portCleared s p).mix.trim l = tget s.mix.trim l := by
  let sel : Line → Bool := fun l => (s.line l).talk.any fun t => t.talker == p
  have mix : (portCleared s p).mix = { s.mix.talkCleared sel with staging := (portCleared s p).mix.staging } :=
    (portCleared_lines s p).2.2
  have level : (portCleared s p).mix.talkLevel = (s.mix.talkCleared sel).talkLevel := by rw [mix]
  have duck : (portCleared s p).mix.trimDuck = (s.mix.talkCleared sel).trimDuck := by rw [mix]
  have trim : (portCleared s p).mix.trim = (s.mix.talkCleared sel).trim := by rw [mix]
  refine ⟨?_, fun l => ?_⟩
  · rw [level, duck, trim]
    refine mix.trans ?_
    rw [talkCleared_frame]
  · obtain ⟨-, h2, h3, h4, -⟩ := MixEngine.talkCleared_spec s.mix sel l
    have chosen : sel l = decide ((s.line l).talk.map TalkSlot.talker = some p) := talker_any _ _
    rw [level, duck, trim, h2, h3, h4, chosen]
    split
    · rename_i held
      simp [held]
    · rename_i other
      simp [other]

/-- The loader after a port reset (R127). -/
theorem portCleared_loader (s : State) (p : Port) :
    (portCleared s p).cue = { s.cue with loaders := (portCleared s p).cue.loaders } ∧
    ∀ q, (portCleared s p).loader q = if q = p ∧ (s.loader p).loading = true then
      { s.loader p with loading := false, timer := none, outcome := .abandoned } else s.loader q := by
  have cue := (portCleared_blocks s p).1
  unfold State.abandonLoad at cue
  split at cue
  · rename_i loading
    refine ⟨by rw [cue]; simp [State.setLoader], fun q => ?_⟩
    rw [loader_congr cue, (State.setLoader_spec s p _).1]
    simp [loading, Loader.ended]
  · rename_i idle
    refine ⟨by rw [cue], fun q => ?_⟩
    rw [loader_congr cue, if_neg fun c => idle c.2]

/-- The command in words of the blocks. -/
theorem portReset_exec {s : State} {p : Port} (released : (s.port p).held = false) :
    exec (.portReset p) s = .next (portCleared s p).driveNotices :=
  congrArg Host.Outcome.next (if_neg (by simp [released]))

/-- The Notice Unit after a port reset (R151). -/
theorem portCleared_notice (s : State) (p : Port) :
    (portCleared s p).notice.latchView = s.notice.latchView ∧ (portCleared s p).notice.refChange = s.notice.refChange ∧
    UnreadTold s (portCleared s p) p false ∧
    ∀ q l, tget (tget (portCleared s p).notice.watch q) l = (if q = p then false else tget (tget s.notice.watch q) l) ∧
      tget (tget (portCleared s p).notice.events q) l = (if q = p then EventSet.empty else tget (tget s.notice.events q) l) := by
  have notice : (portCleared s p).notice = (s.resetNotices p).notice := (portCleared_blocks s p).2.2.1
  rw [UnreadTold, notice]
  refine ⟨rfl, rfl, ⟨tget_tset_self _ _ _, fun q e => tget_tset_of_ne _ _ e⟩, fun q l => ?_⟩
  show tget (tget (tset s.notice.watch p (tall false)) q) l = _ ∧
    tget (tget (tset s.notice.events p (tall EventSet.empty)) q) l = _
  rw [tget_tset, tget_tset]
  split
  · exact ⟨tget_tall _ _, tget_tall _ _⟩
  · exact ⟨rfl, rfl⟩

/-- Settles O8: the blocks' parts of R184, one after the other, touch different items. -/
theorem portResetClearsThePort : Obligations.PortResetClearsThePort := by
  refine ⟨fun p s released => ?_, fun _ _ held => congrArg Host.Outcome.next (if_pos held)⟩
  obtain ⟨ports, freeze⟩ := portCleared_ports s p
  obtain ⟨lines, buses, -⟩ := portCleared_lines s p
  obtain ⟨bank, levels⟩ := portCleared_bank s p
  have players := portCleared_players s p
  obtain ⟨cue, loaders⟩ := portCleared_loader s p
  obtain ⟨-, meter, -, clock, free, pending⟩ := portCleared_blocks s p
  obtain ⟨latches, flag, unread, tables⟩ := portCleared_notice s p
  refine ⟨_, portReset_exec released, (ports p).trans (if_pos rfl), fun q e => (ports q).trans (if_neg e), ⟨freeze, free, pending⟩,
    clock, buses, fun l => ⟨?_, fun q => ?_⟩, bank, levels, fun q e => ?_, ?_, ?_, fun q e => ?_, cue, fun q e => ?_, ?_, ?_, ?_,
    fun q => ?_, latches, flag, unread, tables, (State.driveNotices_spec (portCleared s p)).2⟩
  · show (portCleared s p).line l = { s.line l with
      talk := if (s.line l).talk.map TalkSlot.talker = some p then none else (s.line l).talk
      waiters := ((portCleared s p).line l).waiters }
    rw [lines, talker_any]
    simp
  · show tget ((portCleared s p).line l).waiters q = _
    rw [lines]
    exact tget_tset _ _ _ _
  · exact ((players q).1).trans (if_neg fun c => e c.1)
  · refine ((players p).1).trans ?_
    by_cases idle : (s.player p).state = .idle <;> simp [idle]
  · refine ((players p).2).trans ?_
    by_cases idle : (s.player p).state = .idle <;> simp [idle]
  · exact ((players q).2).trans (if_neg fun c => e c.1)
  · exact (loaders q).trans (if_neg fun c => e c.1)
  · refine (loaders p).trans ?_
    by_cases loading : (s.loader p).loading = true <;> simp [loading]
  · show (portCleared s p).meter.live = _
    rw [meter]
    rfl
  · show (portCleared s p).meter.buffer = _
    rw [meter]
    rfl
  · show tget (portCleared s p).meter.waiting q = _
    rw [meter]
    exact tget_tset _ _ _ _

end Sys2Proof.Proofs.Reset


namespace Sys2Proof.Proofs.Tasks

open Sys2Proof Sys2Proof.Machine Sys2Proof.Safety Sys2Proof.Proofs.Link

/-! ## A completed task

The state after a completed task is the state `u` that its block left, with other ports and another Notice Unit: every fact about
`u`'s six blocks is a fact about it as it stands. -/

/-- A task that its block completes with result `r` in state `u`, where `told` names the other ports' tasks that the block
completed. -/
theorem task_completes_telling {c : Instr} {s u : State} {p : Port} {code : Byte} {args : List Byte} {ok changing : Bool}
    {body : State → TaskEnd} {r : Result} {told : Port → Option Result} (ready : Ready s p)
    (run : exec c s = .next (s.writeTask p code args ok changing body)) (hok : ok = true)
    (hf : changing = false ∨ s.ports.freeze = false) (ends : body (s.taken p) = ⟨u, some r⟩)
    (own : u.port p = (s.taken p).port p)
    (told_some : ∀ q x, q ≠ p → told q = some x → u.port q = delivered (s.port q) x)
    (told_none : ∀ q, q ≠ p → told q = none → u.port q = s.port q)
    (unread : ∀ q, q ≠ p → tget u.notice.unreadView q =
      if (told q).isSome ∧ (s.port q).slot.isWorking then true else tget s.notice.unreadView q)
    (freeze : u.ports.freeze = s.ports.freeze) (free : u.free = s.free) (pending : u.pending = s.pending) :
    ∃ x n, exec c s = .next ((u.withPorts x).withNotice n) ∧
      PortsAfter s ((u.withPorts x).withNotice n) p code args r told ∧
      n = { u.notice with unreadView := n.unreadView, line := n.line } := by
  obtain ⟨c1, c2, c3, c4⟩ := State.complete_spec u p code args r
  obtain ⟨r1, r2, r3, r4⟩ := State.respond_spec (u.complete p code args r) p []
  have served : s.writeTask p code args ok changing body = (u.complete p code args r).respond p [] := by
    rw [State.writeTask_served ready hok hf, ends]
    rfl
  refine ⟨((u.complete p code args r).respond p []).ports, ((u.complete p code args r).respond p []).notice,
    run.trans (congrArg Host.Outcome.next served), ?_, by rw [r3, c4]⟩
  change PortsAfter s ((u.complete p code args r).respond p []) p code args r told
  refine ⟨?_, fun q hq => ?_, ?_, fun q hq => ?_, ⟨?_, ?_, ?_⟩, r4⟩
  · rw [Answered, r1, if_pos rfl, c1, if_pos rfl, own, (State.taken_port s p).1, if_pos rfl, State.statusByte_respond]
    simp [ready.1]
  · rw [r1, if_neg hq, c1, if_neg hq]
    cases e : told q with
    | some x => exact told_some q x hq e
    | none => exact told_none q hq e
  · rw [r3]
    exact (c3 p).trans (if_pos rfl)
  · rw [r3]
    exact (c3 q).trans ((if_neg hq).trans (unread q hq))
  · rw [r2, c2, freeze]
  · simpa using free
  · simpa using pending

/-- What a block leaves that completes no other port's task. -/
abbrev OnlyOwn (s u : State) : Prop :=
  u.ports = s.ports ∧ u.notice.unreadView = s.notice.unreadView ∧ u.free = s.free ∧ u.pending = s.pending

/-- A task that its block completes with result `r` in state `u`, with no other port's task completed. -/
theorem task_completes {c : Instr} {s u : State} {p : Port} {code : Byte} {args : List Byte} {ok changing : Bool}
    {body : State → TaskEnd} {r : Result} (ready : Ready s p)
    (run : exec c s = .next (s.writeTask p code args ok changing body)) (hok : ok = true)
    (hf : changing = false ∨ s.ports.freeze = false) (ends : body (s.taken p) = ⟨u, some r⟩)
    (keeps : OnlyOwn (s.taken p) u) :
    ∃ x n, exec c s = .next ((u.withPorts x).withNotice n) ∧
      TaskTaken s ((u.withPorts x).withNotice n) p code args r ∧
      n = { u.notice with unreadView := n.unreadView, line := n.line } := by
  obtain ⟨ports, unread, free, pending⟩ := keeps
  have port : ∀ q, u.port q = (s.taken p).port q := Effects.port_congr ports
  obtain ⟨others, level⟩ := State.taken_port s p
  refine task_completes_telling (told := fun _ => none) ready run hok hf ends (port p) (fun q x _ e => nomatch e)
    (fun q hq _ => ?_) (fun q _ => ?_) ?_ free pending
  · rw [port, others, if_neg hq]
  · rw [unread]
    simp
  · rw [ports, level]

/-- The same where the block raised no event and changed no latch, watch set or flag. -/
theorem task_done {c : Instr} {s u : State} {p : Port} {code : Byte} {args : List Byte} {ok changing : Bool}
    {body : State → TaskEnd} {r : Result} (ready : Ready s p)
    (run : exec c s = .next (s.writeTask p code args ok changing body)) (hok : ok = true)
    (hf : changing = false ∨ s.ports.freeze = false) (ends : body (s.taken p) = ⟨u, some r⟩)
    (keeps : u.ports = (s.taken p).ports ∧ u.notice = s.notice ∧ u.free = s.free ∧ u.pending = s.pending) :
    ∃ x n, exec c s = .next ((u.withPorts x).withNotice n) ∧
      TaskDone s ((u.withPorts x).withNotice n) p code args r := by
  obtain ⟨ports, notice, free, pending⟩ := keeps
  obtain ⟨x, n, run, taken, same⟩ := task_completes ready run hok hf ends
    ⟨ports, congrArg NoticeUnit.unreadView notice, free, pending⟩
  exact ⟨x, n, run, taken, by rwa [notice] at same⟩

/-- A task that goes on, where its block left state `u`. -/
theorem task_goesOn {c : Instr} {s u : State} {p : Port} {code : Byte} {args : List Byte} {ok changing : Bool}
    {body : State → TaskEnd} (ready : Ready s p)
    (run : exec c s = .next (s.writeTask p code args ok changing body)) (hok : ok = true)
    (hf : changing = false ∨ s.ports.freeze = false) (ends : body (s.taken p) = ⟨u, none⟩)
    (keeps : u.ports = (s.taken p).ports ∧ u.notice = s.notice ∧ u.free = s.free ∧ u.pending = s.pending) :
    ∃ x n, exec c s = .next ((u.withPorts x).withNotice n) ∧ TaskGoesOn s ((u.withPorts x).withNotice n) p code args := by
  obtain ⟨ports, notice, free, pending⟩ := keeps
  have served : s.writeTask p code args ok changing body = (u.settle p code args none).respond p [] := by
    rw [State.writeTask_served ready hok hf, ends]
  obtain ⟨own, others, unread, level, same, lines, -⟩ := State.goesOn_spec ready ports code args
  refine ⟨((u.settle p code args none).respond p []).ports, ((u.settle p code args none).respond p []).notice,
    run.trans (congrArg Host.Outcome.next served), ?_⟩
  change TaskGoesOn s ((u.settle p code args none).respond p []) p code args
  refine ⟨own, others, ⟨(unread p).trans (if_pos rfl), fun q hq => ?_⟩, ⟨level, ?_, ?_⟩, ?_, lines⟩
  · rw [unread, if_neg hq, notice]
  · simpa using free
  · simpa using pending
  · rw [notice] at same
    exact same

/-! ## Argument bytes -/

/-- The first byte of an argument string. -/
@[simp] theorem byteAt_zero (a : Byte) (more : List Byte) : byteAt (a :: more) 0 = a.toNat := rfl

/-- A later byte of an argument string. -/
@[simp] theorem byteAt_succ (a : Byte) (more : List Byte) (i : Nat) : byteAt (a :: more) (i + 1) = byteAt more i := rfl

/-- A two-byte field at the front of an argument string. -/
@[simp] theorem wordAt_zero (a b : Byte) (more : List Byte) : wordAt (a :: b :: more) 0 = wide a b := rfl

/-- A two-byte field further on. -/
@[simp] theorem wordAt_succ (a : Byte) (more : List Byte) (i : Nat) : wordAt (a :: more) (i + 1) = wordAt more i := rfl

/-! ## The matrix tasks -/

/-- SET-CELL at its block, from a port that owns what it names (R42). -/
theorem taskSetCell_owned {s : State} {p : Port} {c : Contributor} {b : Bus} {hi lo : Byte}
    (owns : Owns s p (.cell c b (wide hi lo))) :
    s.taskSetCell p [num c, num b, hi, lo] =
      (s.performAction (.cell c b (wide hi lo))).finish (tget (tget s.mix.cells c) b).current := by
  have passes : s.cellDenied p c b = none := (State.actionDenied_eq_none s p (.cell c b (wide hi lo))).2 owns
  simp [State.taskSetCell, passes]

/-- PARK at its block, from port 0 (R45). -/
theorem taskPark_senior (s : State) (x : Source) (hi lo : Byte) :
    s.taskPark 0 [num x, hi, lo] = (s.withMix (s.mix.writePark x (wide hi lo))).finish s.mix.parkGain.current := by
  simp [State.taskPark]

/-- Settles O11: the block's write is the mirrored action's, or the park feed's. -/
theorem matrixTasksWriteTheirTargets : Obligations.MatrixTasksWriteTheirTargets := by
  refine ⟨fun p c b hi lo s ready freeze owns => ?_, fun x hi lo s ready freeze => ?_⟩
  · obtain ⟨_, _, run, done⟩ := task_done (c := .setCell p _) ready rfl rfl (.inr freeze) (taskSetCell_owned (s := s.taken p) owns) (by simp)
    obtain ⟨written, lines⟩ := State.performAction_spec (s.taken p) (.cell c b (wide hi lo))
    exact ⟨_, run, done, written, lines, rfl, rfl, rfl, rfl⟩
  · obtain ⟨_, _, run, done⟩ := task_done (c := .park 0 _) ready rfl rfl (.inr freeze) (taskPark_senior (s.taken 0) x hi lo) (by simp)
    exact ⟨_, run, done, rfl, rfl, rfl, rfl, rfl, rfl⟩

/-! ## The line tasks -/

/-- PLACE at its block, from a port that owns what it names (R63). -/
theorem taskPlace_owned {s : State} {p : Port} {l : Line} {bus : Option Bus} {hold : Option Source}
    (owns : Owns s p (.place l bus hold)) :
    s.taskPlace p [num l, busByte bus, holdByte hold] =
      (s.performAction (.place l bus hold)).finish (busNumber (s.line l).bus) := by
  have passes : s.placeDenied p l bus = none := (State.actionDenied_eq_none s p (.place l bus hold)).2 owns
  simp [State.taskPlace, passes]

/-- The number of a bus, 0 when absent. -/
theorem busNumber_eq (b : Option Bus) : busNumber b = (b.map fun b => b.val + 1).getD 0 := by cases b <;> rfl

/-- Settles O12: the block's write is the mirrored action's. -/
theorem placeMovesTheLine : Obligations.PlaceMovesTheLine := by
  intro p l bus hold s ready freeze owns
  obtain ⟨_, _, run, done⟩ := task_done (c := .place p _) ready rfl rfl (.inr freeze) (taskPlace_owned (s := s.taken p) owns) (by simp)
  obtain ⟨placed, mix⟩ := State.performAction_spec (s.taken p) (.place l bus hold)
  rw [← busNumber_eq]
  exact ⟨_, run, done, placed, mix, rfl, rfl, rfl, rfl⟩

/-- TRIM at its block, from the line's owner (R65). -/
theorem taskTrim_owned {s : State} {p : Port} {l : Line} (owns : (s.line l).owner = some p) (hi lo : Byte) :
    s.taskTrim p [num l, hi, lo] = (s.performAction (.trim l (wide hi lo))).finish (tget s.mix.storedTrim l) := by
  simp [State.taskTrim, State.lineDenied, owns]

/-- TONE at its block, from the line's owner (R67). -/
theorem taskTone_owned {s : State} {p : Port} {l : Line} (owns : (s.line l).owner = some p) (on : Bool) :
    s.taskTone p [num l, flagByte on] = (s.performAction (.tone l on)).finish (s.line l).tone.toNat := by
  simp [State.taskTone, State.lineDenied, owns]

/-- A yes-or-no field as a number. -/
theorem toNat_eq_ite (v : Bool) : v.toNat = if v then 1 else 0 := by cases v <;> rfl

/-- Settles O13: the block's write is the mirrored action's. -/
theorem trimAndToneWriteTheLine : Obligations.TrimAndToneWriteTheLine := by
  refine ⟨fun p l hi lo s ready freeze owns => ?_, fun p l on s ready freeze owns => ?_⟩
  · obtain ⟨_, _, run, done⟩ := task_done (c := .trim p _) ready rfl rfl (.inr freeze) (taskTrim_owned (s := s.taken p) owns hi lo) (by simp)
    obtain ⟨written, lines⟩ := State.performAction_spec (s.taken p) (.trim l (wide hi lo))
    exact ⟨_, run, done, written, lines, rfl, rfl, rfl, rfl⟩
  · obtain ⟨_, _, run, done⟩ := task_done (c := .tone p _) ready rfl rfl (.inr freeze) (taskTone_owned (s := s.taken p) owns on) (by simp)
    obtain ⟨set, mix⟩ := State.performAction_spec (s.taken p) (.tone l on)
    rw [← toNat_eq_ite]
    exact ⟨_, run, done, set, mix, rfl, rfl, rfl, rfl⟩

/-- ACK-ATTN at its block, from the owner or on a FREE line (R69). -/
theorem taskAckAttn_allowed {s : State} {p : Port} {l : Line} (allowed : (s.line l).owner = none ∨ (s.line l).owner = some p) :
    s.taskAckAttn p [num l] = (s.setAttention l false).finish (s.line l).attention.toNat := by
  obtain free | own := allowed
  · simp [State.taskAckAttn, free]
  · simp [State.taskAckAttn, own]

/-- The latch of a line set or cleared changes that line's record alone. -/
theorem setAttention_onlyLine (s : State) (l : Line) (v : Bool) : OnlyLine s (s.setAttention l v) l :=
  ⟨rfl, fun k hk => ((State.setAttention_spec s l v).1 k).trans (if_neg hk)⟩

/-- Settles O14: latch and view are cleared together. -/
theorem ackAttnClearsTheLatch : Obligations.AckAttnClearsTheLatch := by
  intro p l s ready allowed
  obtain ⟨_, n, run, taken, notice⟩ := task_completes (c := .ackAttn p _) ready rfl rfl (.inl rfl) (taskAckAttn_allowed (s := s.taken p) allowed)
    ⟨rfl, rfl, rfl, rfl⟩
  obtain ⟨lines, -, view, -⟩ := State.setAttention_spec (s.taken p) l false
  have seen : n.latchView = ((s.taken p).setAttention l false).notice.latchView := by rw [notice]
  rw [← toNat_eq_ite]
  refine ⟨_, run, taken, setAttention_onlyLine (s.taken p) l false, (lines l).trans (if_pos rfl), ?_, fun k => ?_, rfl, rfl,
    rfl, rfl, rfl⟩
  · rw [State.withNotice_notice, notice]
    rfl
  · exact (congrArg (fun view => tget view k) seen).trans (view k)

/-! ## LINE-STATUS -/

/-- Entries of the keys that have a value, gathered by value or by key, are the same bytes in the same number. -/
theorem filterMap_entries {β : Type} (f : Port → Option β) (bytes : Port → β → List Byte) (ps : List Port) :
    (ps.filterMap fun q => (f q).map (bytes q)).length = (ps.filter fun q => (f q).isSome).length ∧
    (ps.filterMap fun q => (f q).map (bytes q)).flatten =
      (ps.filter fun q => (f q).isSome).flatMap fun q => ((f q).map (bytes q)).getD [] := by
  induction ps with
  | nil => exact ⟨rfl, rfl⟩
  | cons q rest ih =>
    obtain ⟨length, flat⟩ := ih
    cases e : f q with
    | none => simp [e, length, flat]
    | some v => simp [e, length, flat]

/-- LINE-STATUS at its block (R71). -/
theorem taskLineStatus_line (s : State) (l : Line) :
    s.taskLineStatus [num l] = s.finishWith (portDetail (s.line l).owner) (s.lineStatusOutput l) := by
  simp [State.taskLineStatus]

/-- An owner as a detail number. -/
theorem portDetail_eq (q : Option Port) : portDetail q = (q.map fun q => q.val).getD 255 := by cases q <;> rfl

/-- A yes-or-no field as a byte. -/
theorem one_toNat (v : Bool) : one v.toNat = [flagByte v] := by cases v <;> rfl

/-- A return bus as a byte. -/
theorem one_busNumber (b : Option Bus) : one (busNumber b) = [busByte b] := by cases b <;> rfl

/-- A hold source as a byte. -/
theorem one_sourceNumber (x : Option Source) : one (sourceNumber x) = [holdByte x] := by cases x <;> rfl

/-- The output of LINE-STATUS, its fields in the words of the statements (R188). -/
theorem lineStatusOutput_eq {s : State} {l : Line} {r : LineRec} (record : s.line l = r) :
    let waits := (List.finRange 4).filter fun q => (tget r.waiters q).isSome
    s.lineStatusOutput l =
      [num l, flagByte r.connected, flagByte r.attention] ++ one r.status.code ++ one (portDetail r.owner) ++
      [busByte r.bus, holdByte r.hold, flagByte r.tone] ++ two (tget s.mix.storedTrim l) ++
      ((r.talk.map fun x => [num0 x.talker, num x.source] ++ two x.gain ++ two x.duck).getD [255, 0, 0, 0, 0, 0]) ++
      one waits.length ++
      waits.flatMap fun q => ((tget r.waiters q).map fun t => num0 q :: t.bytes).getD [] := by
  intro waits
  obtain ⟨length, flat⟩ := filterMap_entries (fun q => tget r.waiters q) (fun q t => BitVec.ofNat 8 q.val :: t.bytes)
    (List.finRange 4)
  have number : one (l.val + 1) = [num l] := rfl
  simp only [State.lineStatusOutput, LineRec.waiterBytes, record, beBytes_one, beBytes_two, one_toNat, one_busNumber,
    one_sourceNumber, number]
  rw [length, flat]
  cases r.talk <;> simp [waits, num0, num, one, two]

/-- Settles O15: the output's fields one by one; the waiters in ascending order. -/
theorem lineStatusReportsTheRecord : Obligations.LineStatusReportsTheRecord := by
  intro p l s ready r waits output
  obtain ⟨_, _, run, done⟩ := task_done (c := .lineStatus p _) ready rfl rfl (.inl rfl) (taskLineStatus_line (s.taken p) l) (by simp)
  have written : (s.taken p).lineStatusOutput l = output := by
    refine (lineStatusOutput_eq (s := s.taken p) (r := r) rfl).trans (congrArg₂ (· ++ ·) ?_ ?_)
    · congr 6
      · exact portDetail_eq _
      · cases r.talk <;> rfl
    · refine List.flatMap_congr fun q hq => ?_
      obtain ⟨v, hv⟩ := Option.isSome_iff_exists.1 (List.mem_filter.1 hq).2
      rw [hv]
      cases v <;> simp [TimeLeft.bytes, beBytes_three]
  rw [written] at done
  rw [← portDetail_eq]
  exact ⟨_, run, done, rfl, rfl, rfl, rfl, rfl, rfl⟩

end Sys2Proof.Proofs.Tasks


namespace Sys2Proof.Proofs.OwnershipTasks

open Sys2Proof Sys2Proof.Machine Sys2Proof.Safety Sys2Proof.Proofs.Courses Sys2Proof.Proofs.Effects Sys2Proof.Proofs.Tasks

/-! ## The first of a row of ports -/

/-- A search in ascending order finds the lowest number that meets the condition. -/
theorem find_finRange {n : Nat} {P : Fin n → Bool} {i : Fin n} (here : P i = true) (lowest : ∀ j, j < i → P j = false) :
    (List.finRange n).find? P = some i := by
  rw [← Fin.find?_eq_find?_finRange]
  exact Fin.find?_eq_some_iff.2 ⟨here, lowest⟩

/-- The lowest-numbered waiter, or none (R80). -/
theorem firstWaiter_eq {r : LineRec} {new : Option Port}
    (waits : ∀ q, new = some q → (tget r.waiters q).isSome = true ∧ ∀ k, k < q → tget r.waiters k = none)
    (alone : new = none → ∀ q, tget r.waiters q = none) : r.firstWaiter = new := by
  cases new with
  | none => exact List.find?_eq_none.2 fun q _ => by simp [alone rfl q]
  | some q =>
    obtain ⟨here, lowest⟩ := waits q rfl
    exact find_finRange here fun k hk => by simp [lowest k hk]

/-! ## CLAIM -/

/-- A FREE line granted at once: HELD under the port, with latch and latch view cleared (R85, R59). -/
theorem grantFree_spec (s : State) (l : Line) (p : Port) :
    OnlyLine s (s.grantFree l p) l ∧
    (s.grantFree l p).line l = { s.line l with status := .held, owner := some p, attention := false } ∧
    (s.grantFree l p).notice = { s.notice with latchView := (s.grantFree l p).notice.latchView } ∧
    ∀ k, tget (s.grantFree l p).notice.latchView k = if k = l then false else tget s.notice.latchView k := by
  obtain ⟨granted, -⟩ := State.modLine_spec s l fun r => r.granted p
  obtain ⟨lines, -, view, notice⟩ := State.setAttention_spec (s.modLine l fun r => r.granted p) l false
  refine ⟨⟨rfl, fun k hk => ?_⟩, ?_, notice, view⟩
  · exact (lines k).trans ((if_neg hk).trans ((granted k).trans (if_neg hk)))
  · refine (lines l).trans ((if_pos rfl).trans ?_)
    rw [granted l, if_pos rfl]
    rfl

/-- CLAIM of a FREE line at its block. -/
theorem taskClaim_free {s : State} {l : Line} (free : (s.line l).owner = none) (p : Port) (hi lo : Byte) :
    s.taskClaim p [num l, hi, lo] = (s.grantFree l p).finish 255 := by
  simp [State.taskClaim, free]

/-- CLAIM of an owned line at its block. -/
theorem taskClaim_owned {s : State} {l : Line} {q : Port} (owner : (s.line l).owner = some q) (p : Port) (hi lo : Byte) :
    s.taskClaim p [num l, hi, lo] =
      if q = p then ⟨s, some (ends .done .alreadyOwner p.val)⟩
      else if wide hi lo = 0 then s.refuse .busy q.val
      else ⟨s.modLine l fun r => { r with waiters := tset r.waiters p (some (claimWait (wide hi lo))) }, none⟩ := by
  by_cases own : q = p <;> by_cases now : wide hi lo = 0 <;>
    simp [State.taskClaim, owner, own, now, ends, Result.plain]

/-- The remaining wait of a CLAIM (R79). -/
theorem claimWait_eq (n : Nat) : claimWait n = if n = 65535 then .unlimited else .frames (48 * min n 30000) := by
  simp [claimWait, msFrames, Nat.mul_comm]

/-- Settles O16, by the line's owner. -/
theorem claimActsByTheOwner : Obligations.ClaimActsByTheOwner := by
  intro p l hi lo s ready freeze
  obtain free | ⟨q, owner⟩ := (s.line l).owner.eq_none_or_eq_some
  · obtain ⟨_, n, run, taken, notice⟩ := task_completes (c := .claim p _) ready rfl rfl (.inr freeze)
      (taskClaim_free (s := s.taken p) free p hi lo) ⟨rfl, rfl, rfl, rfl⟩
    obtain ⟨only, record, same, view⟩ := grantFree_spec (s.taken p) l p
    have seen : n.latchView = ((s.taken p).grantFree l p).notice.latchView := by rw [notice]
    refine ⟨_, run, rfl, rfl, rfl, rfl, rfl, fun _ => ⟨taken, only, record, ?_, fun k => ?_⟩, fun q owner => ?_⟩
    · rw [State.withNotice_notice, notice]
      rfl
    · exact (congrArg (fun view => tget view k) seen).trans (view k)
    · rw [free] at owner
      cases owner
  · have none_free : (s.line l).owner = none → False := fun free => by rw [free] at owner; cases owner
    have block := taskClaim_owned (s := s.taken p) owner p hi lo
    by_cases own : q = p
    · rw [if_pos own] at block
      obtain ⟨_, _, run, done⟩ := task_done (c := .claim p _) ready rfl rfl (.inr freeze) block ⟨rfl, rfl, rfl, rfl⟩
      refine ⟨_, run, rfl, rfl, rfl, rfl, rfl, fun free => (none_free free).elim, fun r owner' => ?_⟩
      obtain rfl : q = r := Option.some.inj (owner.symm.trans owner')
      rw [if_pos own]
      exact ⟨done, rfl⟩
    · rw [if_neg own] at block
      by_cases now : wide hi lo = 0
      · rw [if_pos now] at block
        obtain ⟨_, _, run, done⟩ := task_done (c := .claim p _) ready rfl rfl (.inr freeze) block ⟨rfl, rfl, rfl, rfl⟩
        refine ⟨_, run, rfl, rfl, rfl, rfl, rfl, fun free => (none_free free).elim, fun r owner' => ?_⟩
        obtain rfl : q = r := Option.some.inj (owner.symm.trans owner')
        rw [if_neg own, if_pos now]
        exact ⟨done, rfl⟩
      · rw [if_neg now] at block
        obtain ⟨_, _, run, goes⟩ := task_goesOn (c := .claim p _) ready rfl rfl (.inr freeze) block ⟨rfl, rfl, rfl, rfl⟩
        obtain ⟨lines, -⟩ := State.modLine_spec (s.taken p) l fun r =>
          { r with waiters := tset r.waiters p (some (claimWait (wide hi lo))) }
        have record := (lines l).trans (if_pos rfl)
        refine ⟨_, run, rfl, rfl, rfl, rfl, rfl, fun free => (none_free free).elim, fun r owner' => ?_⟩
        obtain rfl : q = r := Option.some.inj (owner.symm.trans owner')
        rw [if_neg own, if_neg now]
        refine ⟨goes, ⟨rfl, fun k hk => (lines k).trans (if_neg hk)⟩, ?_, fun k => ?_⟩
        · exact record.trans (congrArg (fun w => { s.line l with waiters := w }) (congrArg LineRec.waiters record).symm)
        · rw [← claimWait_eq]
          refine (congrArg (fun r : LineRec => tget r.waiters k) record).trans ?_
          exact tget_tset _ _ _ _

/-! ## Tasks that change the owner -/

/-- A completion delivered to a slot that is not WORKING has no effect (R180). -/
theorem delivered_idle {x : CtrlPort} (idle : x.slot.isWorking = false) (r : Result) : delivered x r = x := by
  cases slot : x.slot with
  | working code args => rw [slot] at idle; cases idle
  | empty => simp [delivered, slot]
  | done code args y => simp [delivered, slot]

/-- The writing port as its block finds it (R177). -/
theorem taken_port_self (s : State) (p : Port) : (s.taken p).port p = { s.port p with writeNotTaken := false } :=
  ((State.taken_port s p).1 p).trans (if_pos rfl)

/-- Another port as the block finds it. -/
theorem taken_port_other (s : State) {p q : Port} (other : q ≠ p) : (s.taken p).port q = s.port q :=
  ((State.taken_port s p).1 q).trans (if_neg other)

/-- A completion delivered to the writing port, whose slot is not WORKING, has no effect. -/
theorem delivered_taken {s : State} {p : Port} (ready : Ready s p) (r : Result) :
    delivered ((s.taken p).port p) r = (s.taken p).port p :=
  delivered_idle (by rw [taken_port_self]; exact ready.2) r

/-- A task that changes the line's owner and leaves ports and unread marks at that: the new owner's waiting CLAIM is completed with
the previous owner in the detail (R82). -/
theorem changeOwner_completes {c : Instr} {s v : State} {p : Port} {code : Byte} {args : List Byte} {ok changing : Bool}
    {body : State → TaskEnd} {r : Result} {told : Port → Option Result} {l : Line} {prev : Port} {new : Option Port}
    {actor : Port} (ready : Ready s p) (run : exec c s = .next (s.writeTask p code args ok changing body)) (hok : ok = true)
    (hf : changing = false ∨ s.ports.freeze = false) (ends_ : body (s.taken p) = ⟨v, some r⟩)
    (ports : v.ports = ((s.taken p).changeOwner l prev new actor).ports)
    (unread : v.notice.unreadView = ((s.taken p).changeOwner l prev new actor).notice.unreadView)
    (free : v.free = s.free) (pending : v.pending = s.pending)
    (tells : ∀ q, q ≠ p → told q =
      if new = some q ∧ (tget (s.line l).waiters q).isSome then some (ends .done .none prev.val) else none) :
    ∃ x n, exec c s = .next ((v.withPorts x).withNotice n) ∧
      PortsAfter s ((v.withPorts x).withNotice n) p code args r told ∧
      n = { v.notice with unreadView := n.unreadView, line := n.line } := by
  obtain ⟨-, -, -, -, port, level, view⟩ := State.changeOwner_spec (s.taken p) l prev new actor
  have other : ∀ q, q ≠ p → (s.taken p).port q = s.port q := fun q hq => taken_port_other s hq
  have vport : ∀ q, v.port q = ((s.taken p).changeOwner l prev new actor).port q := port_congr ports
  refine task_completes_telling ready run hok hf ends_ ?_ (fun q x hq e => ?_) (fun q hq e => ?_) (fun q hq => ?_) ?_ free
    pending
  · rw [vport]
    by_cases h : new = some p ∧ (tget (s.line l).waiters p).isSome = true
    · exact ((port p).1 h).trans (delivered_taken ready _)
    · exact (port p).2 h
  · rw [tells q hq] at e
    split at e
    · rename_i h
      obtain rfl := Option.some.inj e
      rw [vport, ← other q hq]
      exact (port q).1 h
    · cases e
  · rw [tells q hq] at e
    split at e
    · cases e
    · rename_i h
      rw [vport, ← other q hq]
      exact (port q).2 h
  · rw [unread, tells q hq]
    by_cases h : (new = some q ∧ (tget (s.line l).waiters q).isSome = true) ∧ (s.port q).slot.isWorking = true
    · rw [if_pos (by rw [if_pos h.1]; exact ⟨rfl, h.2⟩)]
      exact (view q).1 ⟨h.1, by rw [other q hq]; exact h.2⟩
    · rw [if_neg fun w => h ?_]
      · exact (view q).2 fun w => h ⟨w.1, by rw [← other q hq]; exact w.2⟩
      · by_cases t : new = some q ∧ (tget (s.line l).waiters q).isSome = true
        · exact ⟨t, w.2⟩
        · rw [if_neg t] at w
          cases w.1
  · rw [ports, level, (State.taken_port s p).2]

/-- The clean-up of R75 is a fact about the Line Table, the bank and the players. -/
theorem CleanedUp.congr {s u v : State} {p : Port} {l : Line} {new : Option Port} (h : CleanedUp (s.taken p) u l new)
    (lines : v.lineTable = u.lineTable) (mix : v.mix = u.mix) (players : v.players = u.players) : CleanedUp s v l new := by
  have line : ∀ k, v.line k = u.line k := line_congr lines
  have player : ∀ q, v.player q = u.player q := player_congr players
  have names : ∀ q, (s.taken p).groupNames (Action.namesLine l) q = s.groupNames (Action.namesLine l) q :=
    groupNames_congr rfl _
  obtain ⟨table, bank, -, moves, -⟩ := State.taken_frame s p
  simpa only [CleanedUp, OnlyLine, GroupsLost, line, player, lines, mix, names, table, bank, moves, State.taken_line,
    State.taken_player] using h

/-- A latch set or cleared afterwards leaves the clean-up of R75 as it is. -/
theorem CleanedUp.setAttention {s u : State} {l : Line} {new : Option Port} (h : CleanedUp s u l new) (v : Bool) :
    CleanedUp s (u.setAttention l v) l new := by
  obtain ⟨record, waits, ⟨table, others⟩, mix, cells, lines, lost⟩ := h
  obtain ⟨after, -⟩ := State.setAttention_spec u l v
  have here : (u.setAttention l v).line l = { u.line l with attention := v } := (after l).trans (if_pos rfl)
  have waiters : ((u.setAttention l v).line l).waiters = (u.line l).waiters := by rw [here]
  have latch : ((u.setAttention l v).line l).attention = v := by rw [here]
  refine ⟨?_, fun q => ?_, ⟨?_, fun k hk => ?_⟩, mix, cells, lines, lost⟩
  · rw [latch, waiters, here]
    exact congrArg (fun r : LineRec => { r with attention := v }) record
  · rw [waiters]
    exact waits q
  · exact congrArg (fun x : LineTable => { x with lines := (u.setAttention l v).lineTable.lines }) table
  · exact ((after k).trans (if_neg hk)).trans (others k hk)

/-- RELEASE at its block by the owner, without waiters (R87). -/
theorem taskRelease_alone {s : State} {p : Port} {l : Line} (owns : (s.line l).owner = some p)
    (first : (s.line l).firstWaiter = none) : s.taskRelease p [num l] = (s.changeOwner l p none p).finish 255 := by
  simp [State.taskRelease, State.lineDenied, owns, first]

/-- RELEASE at its block by the owner, with waiters (R87, R80). -/
theorem taskRelease_granted {s : State} {p q : Port} {l : Line} (owns : (s.line l).owner = some p)
    (first : (s.line l).firstWaiter = some q) :
    s.taskRelease p [num l] = ((s.changeOwner l p (some q) p).setAttention l false).finish q.val := by
  simp [State.taskRelease, State.lineDenied, owns, first]

/-- What a task's end leaves of the Notice Unit that its block left. -/
theorem notice_fields {n m : NoticeUnit} (same : n = { m with unreadView := n.unreadView, line := n.line }) :
    n.events = m.events ∧ n.watch = m.watch ∧ n.refChange = m.refChange ∧ n.latchView = m.latchView :=
  ⟨by rw [same], by rw [same], by rw [same], by rw [same]⟩

/-- Events added in one state are added in every state with the same event tables. -/
theorem EventsAdded.congr {s u t : State} {added : Port → Line → EventKind → Bool} (h : EventsAdded s u added)
    (same : t.notice.events = u.notice.events) : EventsAdded s t added := fun q l k =>
  (congrArg (fun events => (tget (tget events q) l).has k) same).trans (h q l k)

/-- A change of owner raises events and tells unread results, and leaves the rest of the Notice Unit. -/
theorem changeOwner_notice (s : State) (l : Line) (prev : Port) (new : Option Port) (actor : Port) :
    (s.changeOwner l prev new actor).notice.watch = s.notice.watch ∧
    (s.changeOwner l prev new actor).notice.refChange = s.notice.refChange ∧
    (s.changeOwner l prev new actor).notice.latchView = s.notice.latchView := by
  obtain ⟨-, -, -, notice, -⟩ := State.changeOwner_spec s l prev new actor
  exact ⟨by rw [notice], by rw [notice], by rw [notice]⟩

/-- Settles O17: the change of owner of R74 to R77, and for a grant the latch cleared with its view. -/
theorem releaseFreesOrGrantsTheLine : Obligations.ReleaseFreesOrGrantsTheLine := by
  intro p l new s ready freeze owns waits alone
  have first : (s.line l).firstWaiter = new := firstWaiter_eq waits alone
  obtain ⟨cleaned, latch, events, -⟩ := State.changeOwner_spec (s.taken p) l p new p
  obtain ⟨cue, meter, clock, free, pending⟩ := State.changeOwner_frame (s.taken p) l p new p
  obtain ⟨watch, flag, view⟩ := changeOwner_notice (s.taken p) l p new p
  have tells : ∀ q : Port, (if new = some q then some (ends .done .none p.val) else none) =
      if new = some q ∧ (tget (s.line l).waiters q).isSome then some (ends .done .none p.val) else none := fun q =>
    if_congr ⟨fun e => ⟨e, (waits q e).1⟩, And.left⟩ rfl rfl
  cases new with
  | none =>
    obtain ⟨_, n, run, after, same⟩ := changeOwner_completes (c := .release p _) ready rfl rfl (.inr freeze)
      (taskRelease_alone (s := s.taken p) owns first) rfl rfl free pending (fun q _ => tells q)
    obtain ⟨sameEvents, sameWatch, sameFlag, sameView⟩ := notice_fields same
    refine ⟨_, run, after, cleaned, latch, EventsAdded.congr events sameEvents, sameWatch.trans watch, sameFlag.trans flag,
      fun k => ?_, cue, meter, clock⟩
    rw [if_neg fun h => h.1 rfl]
    exact congrArg (fun view => tget view k) (sameView.trans view)
  | some q =>
    let u := (s.taken p).changeOwner l p (some q) p
    obtain ⟨_, n, run, after, same⟩ := changeOwner_completes (c := .release p _) ready rfl rfl (.inr freeze)
      (taskRelease_granted (s := s.taken p) owns first) rfl rfl free pending (fun q _ => tells q)
    obtain ⟨sameEvents, sameWatch, sameFlag, sameView⟩ := notice_fields same
    obtain ⟨lines, -, cleared, -⟩ := State.setAttention_spec u l false
    refine ⟨_, run, after, CleanedUp.setAttention cleaned false, congrArg LineRec.attention ((lines l).trans (if_pos rfl)),
      EventsAdded.congr events sameEvents, sameWatch.trans watch, sameFlag.trans flag, fun k => ?_, cue, meter, clock⟩
    refine (congrArg (fun view => tget view k) sameView).trans ((cleared k).trans (if_congr ?_ rfl ?_))
    · exact ⟨fun e => ⟨nofun, e⟩, And.right⟩
    · exact congrArg (fun view => tget view k) view

/-- HAND at its block by the owner to another port (R89). -/
theorem taskHand_other {s : State} {p q : Port} {l : Line} (owns : (s.line l).owner = some p) (other : q ≠ p) :
    s.taskHand p [num l, num0 q] =
      ((s.changeOwner l p (some q) p).raise q l .handed).finish (tget (s.line l).waiters q).isSome.toNat := by
  simp [State.taskHand, State.lineDenied, owns, other]

/-- Events added one after the other. -/
theorem EventsAdded.trans {s u t : State} {f g : Port → Line → EventKind → Bool} (h : EventsAdded s u f)
    (k : EventsAdded u t g) : EventsAdded s t fun q l e => f q l e || g q l e := fun q l e => by
  rw [k q l e, h q l e, Bool.or_assoc]

/-- A change of owner that raises one more event to port `q`. -/
theorem changeOwner_raise (s : State) (l : Line) (prev : Port) (new : Option Port) (actor q : Port) (kind : EventKind) :
    EventsAdded s ((s.changeOwner l prev new actor).raise q l kind) fun r k e =>
      k == l && (e == .talkEnded && talkEndedTo s l actor == some r || e == kind && r == q) := by
  obtain ⟨-, -, events, -⟩ := State.changeOwner_spec s l prev new actor
  have both := EventsAdded.trans events (State.raise_spec (s.changeOwner l prev new actor) q l kind).1
  intro r k e
  rw [both r k e, Bool.eq_iff_iff]
  simp only [Bool.or_eq_true, Bool.and_eq_true]
  tauto

/-- Settles O18: the change of owner of R74 to R77, then HANDED. -/
theorem handPassesTheLine : Obligations.HandPassesTheLine := by
  intro p q l s ready freeze owns other
  obtain ⟨cleaned, latch, -⟩ := State.changeOwner_spec (s.taken p) l p (some q) p
  obtain ⟨cue, meter, clock, free, pending⟩ := State.changeOwner_frame (s.taken p) l p (some q) p
  obtain ⟨watch, flag, view⟩ := changeOwner_notice (s.taken p) l p (some q) p
  have tells : ∀ r : Port, (if r = q ∧ (tget (s.line l).waiters q).isSome then some (ends .done .none p.val) else none) =
      if some q = some r ∧ (tget (s.line l).waiters r).isSome then some (ends .done .none p.val) else none := fun r => by
    by_cases e : r = q
    · rw [e]
      simp
    · simp [e, Ne.symm e]
  obtain ⟨_, n, run, after, same⟩ := changeOwner_completes (c := .hand p _) ready rfl rfl (.inr freeze)
    (taskHand_other (s := s.taken p) owns other) rfl rfl free pending (fun q _ => tells q)
  obtain ⟨sameEvents, sameWatch, sameFlag, sameView⟩ := notice_fields same
  rw [← toNat_eq_ite]
  have events := changeOwner_raise (s.taken p) l p (some q) p q .handed
  generalize (s.taken p).changeOwner l p (some q) p = u at *
  exact ⟨_, run, after, CleanedUp.congr cleaned rfl rfl rfl, latch, EventsAdded.congr events sameEvents,
    sameWatch.trans watch, sameFlag.trans flag, sameView.trans view, cue, meter, clock⟩

/-- SEIZE of a FREE line at its block (R91). -/
theorem taskSeize_free {s : State} {l : Line} (free : (s.line l).owner = none) :
    s.taskSeize 0 [num l] = (s.grantFree l 0).finish 255 := by
  simp [State.taskSeize, free]

/-- SEIZE of port 0's own line at its block (R91). -/
theorem taskSeize_own {s : State} {l : Line} (own : (s.line l).owner = some 0) :
    s.taskSeize 0 [num l] = ⟨s, some (ends .done .alreadyOwner 0)⟩ := by
  simp [State.taskSeize, own, ends, Result.plain]

/-- SEIZE of another port's line at its block (R91). -/
theorem taskSeize_other {s : State} {l : Line} {q : Port} (owner : (s.line l).owner = some q) (other : q ≠ 0) :
    s.taskSeize 0 [num l] = ((s.changeOwner l q (some 0) 0).raise q l .taken).finish q.val := by
  simp [State.taskSeize, owner, other]

/-- Settles O19, by the line's owner. -/
theorem seizeTakesTheLine : Obligations.SeizeTakesTheLine := by
  intro l s ready freeze
  obtain free | ⟨q, owner⟩ := (s.line l).owner.eq_none_or_eq_some
  · obtain ⟨_, n, run, taken, notice⟩ := task_completes (c := .seize 0 _) ready rfl rfl (.inr freeze)
      (taskSeize_free (s := s.taken 0) free) ⟨rfl, rfl, rfl, rfl⟩
    obtain ⟨only, record, same, view⟩ := grantFree_spec (s.taken 0) l 0
    have seen : n.latchView = ((s.taken 0).grantFree l 0).notice.latchView := by rw [notice]
    refine ⟨_, run, rfl, rfl, rfl, fun _ => ⟨taken, only, rfl, rfl, record, ?_, fun k => ?_⟩, fun q owner => ?_⟩
    · rw [State.withNotice_notice, notice]
      rfl
    · exact (congrArg (fun view => tget view k) seen).trans (view k)
    · rw [free] at owner
      cases owner
  · have none_free : (s.line l).owner = none → False := fun free => by rw [free] at owner; cases owner
    by_cases own : q = 0
    · obtain ⟨_, _, run, done⟩ := task_done (c := .seize 0 _) ready rfl rfl (.inr freeze)
        (taskSeize_own (s := s.taken 0) (owner.trans (congrArg some own))) ⟨rfl, rfl, rfl, rfl⟩
      refine ⟨_, run, rfl, rfl, rfl, fun free => (none_free free).elim, fun r owner' => ?_⟩
      obtain rfl : q = r := Option.some.inj (owner.symm.trans owner')
      rw [if_pos own]
      exact ⟨done, rfl, rfl, rfl⟩
    · obtain ⟨cleaned, latch, -⟩ := State.changeOwner_spec (s.taken 0) l q (some 0) 0
      obtain ⟨cue, meter, clock, free, pending⟩ := State.changeOwner_frame (s.taken 0) l q (some 0) 0
      obtain ⟨watch, flag, view⟩ := changeOwner_notice (s.taken 0) l q (some 0) 0
      obtain ⟨_, n, run, after, same⟩ := changeOwner_completes (c := .seize 0 _) (told := fun _ => none) ready rfl rfl
        (.inr freeze) (taskSeize_other (s := s.taken 0) owner own) rfl rfl free pending
        (fun r hr => (if_neg fun h => hr (Option.some.inj h.1).symm).symm)
      obtain ⟨sameEvents, sameWatch, sameFlag, sameView⟩ := notice_fields same
      have events := changeOwner_raise (s.taken 0) l q (some 0) 0 q .taken
      generalize (s.taken 0).changeOwner l q (some 0) 0 = u at *
      refine ⟨_, run, cue, meter, clock, fun free => (none_free free).elim, fun r owner' => ?_⟩
      obtain rfl : q = r := Option.some.inj (owner.symm.trans owner')
      rw [if_neg own]
      exact ⟨after, CleanedUp.congr cleaned rfl rfl rfl, latch, EventsAdded.congr events sameEvents,
        sameWatch.trans watch, sameFlag.trans flag, sameView.trans view⟩

/-! ## ASSIGN and CLEAR-MATRIX -/

/-- ASSIGN at its block, by port 0 (R93). -/
theorem taskAssign_senior (s : State) (b : Bus) (q : Port) :
    s.taskAssign 0 [num b, num0 q] =
      if s.busOwner b = q then s.finish q.val else (s.assignBus b q).finish (s.busOwner b).val := by
  simp [State.taskAssign]

/-- Settles O20, by the bus's owner. -/
theorem assignPassesTheBus : Obligations.AssignPassesTheBus := by
  intro b q s ready freeze
  have block := taskAssign_senior (s.taken 0) b q
  by_cases own : s.busOwner b = q
  · subst own
    rw [if_pos (State.taken_busOwner s 0 b)] at block
    obtain ⟨_, _, run, done⟩ := task_done (c := .assign 0 _) ready rfl rfl (.inr freeze) block ⟨rfl, rfl, rfl, rfl⟩
    refine ⟨_, run, done, rfl, rfl, rfl, ?_⟩
    rw [if_pos rfl]
    exact ⟨rfl, rfl, rfl⟩
  · rw [if_neg (by rwa [State.taken_busOwner])] at block
    obtain ⟨_, _, run, done⟩ := task_done (c := .assign 0 _) ready rfl rfl (.inr freeze) block ⟨rfl, rfl, rfl, rfl⟩
    obtain ⟨owners, lines, mix, cells, lost⟩ := assignBus_spec (s.taken 0) b q
    obtain ⟨cue, -, meter, clock, -⟩ := State.assignBus_frame (s.taken 0) b q
    generalize (s.taken 0).assignBus b q = u at *
    refine ⟨_, run, done, cue, meter, clock, ?_⟩
    rw [if_neg own]
    refine ⟨owners, lines, mix, fun l k => ?_, fun x => table_ext fun k => ?_, lost⟩
    · refine (cells _ k).trans (if_congr ?_ rfl rfl)
      rw [line?_contributor]
      simp
    · refine (cells _ k).trans (if_neg ?_)
      rw [line?_source]
      simp

/-- CLEAR-MATRIX at its block, by port 0 (R96). -/
theorem taskClearMatrix_senior (s : State) : s.taskClearMatrix 0 = s.clearAll.finish s.ownedCount := by
  simp [State.taskClearMatrix]

/-- A port waits on a line (R78). -/
theorem waitsOnLine_iff (s : State) (q : Port) : s.waitsOnLine q = true ↔ ∃ l, (tget (s.line l).waiters q).isSome = true := by
  simp [State.waitsOnLine]

/-- CLEAR-MATRIX's writes into the bank, the groups apart (R96). -/
theorem clearedBank_spec (m : MixEngine) (owned : Line → Bool) :
    let n := (m.cleaned owned).writeCells (fun _ _ => true) 0
    (∀ c b, tget (tget n.cells c) b = aimed (tget (tget m.cells c) b) 0) ∧
    (∀ l, tget n.storedTrim l = (if owned l then 32768 else tget m.storedTrim l) ∧
      tget n.trimDuck l = (if owned l then 32768 else tget m.trimDuck l) ∧
      tget n.trim l = (if owned l then aimed (tget m.trim l) 32768 else tget m.trim l) ∧
      tget n.talkLevel l = (if owned l then aimed (tget m.talkLevel l) 0 else tget m.talkLevel l)) ∧
    n.lastTalk = m.lastTalk ∧ n.parkSource = m.parkSource ∧ n.tonePhase = m.tonePhase ∧ n.out = m.out := by
  obtain ⟨cells, lines, -⟩ := MixEngine.cleaned_spec m owned
  refine ⟨fun c b => ?_, lines, rfl, rfl, rfl, rfl⟩
  rw [(MixEngine.writeCells_spec _ _ 0).2, if_pos rfl, cells]
  split <;> rfl

/-- The bank after CLEAR-MATRIX, in the words of the statements (R96). -/
theorem clearAll_bank (s : State) :
    s.clearAll.mix = { s.mix with
      cells := s.clearAll.mix.cells, storedTrim := s.clearAll.mix.storedTrim, trimDuck := s.clearAll.mix.trimDuck
      trim := s.clearAll.mix.trim, talkLevel := s.clearAll.mix.talkLevel, parkGain := aimed s.mix.parkGain 0
      staging := s.clearAll.mix.staging } ∧
    (∀ c b, tget (tget s.clearAll.mix.cells c) b = aimed (tget (tget s.mix.cells c) b) 0) ∧
    ∀ l, if (s.line l).owner = none then
        tget s.clearAll.mix.storedTrim l = tget s.mix.storedTrim l ∧ tget s.clearAll.mix.trimDuck l = tget s.mix.trimDuck l ∧
        tget s.clearAll.mix.trim l = tget s.mix.trim l ∧ tget s.clearAll.mix.talkLevel l = tget s.mix.talkLevel l
      else tget s.clearAll.mix.storedTrim l = 32768 ∧ tget s.clearAll.mix.trimDuck l = 32768 ∧
        tget s.clearAll.mix.trim l = aimed (tget s.mix.trim l) 32768 ∧
        tget s.clearAll.mix.talkLevel l = aimed (tget s.mix.talkLevel l) 0 := by
  obtain ⟨-, -, mix, -⟩ := clearAll_spec s
  obtain ⟨cells, lines, last, source, phase, out⟩ := clearedBank_spec s.mix fun l => (s.line l).owner.isSome
  generalize (s.mix.cleaned fun l => (s.line l).owner.isSome).writeCells (fun _ _ => true) 0 = n at *
  generalize s.clearAll.mix = m at *
  obtain ⟨c, st, d, t, tl⟩ : m.cells = n.cells ∧ m.storedTrim = n.storedTrim ∧ m.trimDuck = n.trimDuck ∧ m.trim = n.trim ∧
    m.talkLevel = n.talkLevel := ⟨by rw [mix], by rw [mix], by rw [mix], by rw [mix], by rw [mix]⟩
  refine ⟨?_, fun k b => by rw [c]; exact cells k b, fun l => ?_⟩
  · rw [c, st, d, t, tl]
    refine mix.trans ?_
    dsimp only
    rw [last, source, phase, out]
  · rw [st, d, t, tl]
    obtain ⟨h1, h2, h3, h4⟩ := lines l
    rw [h1, h2, h3, h4]
    cases (s.line l).owner <;> simp

/-- Settles O21: the parts of CLEAR-MATRIX one by one. -/
theorem clearMatrixFreesEverything : Obligations.ClearMatrixFreesEverything := by
  intro s ready freeze
  obtain ⟨table, lines, -, players, events, notice, ports, level, views⟩ := clearAll_spec (s.taken 0)
  obtain ⟨mix, cells, bank⟩ := clearAll_bank (s.taken 0)
  obtain ⟨cue, meter, clock, free, pending⟩ := State.clearAll_frame (s.taken 0)
  have block := taskClearMatrix_senior (s.taken 0)
  generalize (s.taken 0).clearAll = u at *
  have waits : ∀ q, (s.taken 0).waitsOnLine q = true ↔ ∃ l, (tget (s.line l).waiters q).isSome = true :=
    waitsOnLine_iff (s.taken 0)
  have told : ∀ q, q ≠ 0 → u.port q =
      if ∃ l, (tget (s.line l).waiters q).isSome = true then delivered (s.port q) (ends .ended .cleared 255) else s.port q :=
    fun q hq => (ports q).trans (by rw [if_congr (waits q) rfl rfl, taken_port_other s hq])
  have own : u.port 0 = (s.taken 0).port 0 := by
    rw [ports]
    split
    · exact delivered_taken ready _
    · rfl
  have told_some : ∀ q x, q ≠ 0 → (if ∃ l, (tget (s.line l).waiters q).isSome = true then some (ends .ended .cleared 255)
      else none) = some x → u.port q = delivered (s.port q) x := fun q x hq e => by
    rw [told q hq]
    split at e
    · rename_i h
      rw [if_pos h, Option.some.inj e]
    · cases e
  have told_none : ∀ q, q ≠ 0 → (if ∃ l, (tget (s.line l).waiters q).isSome = true then some (ends .ended .cleared 255)
      else none) = none → u.port q = s.port q := fun q hq e => by
    rw [told q hq]
    split at e
    · cases e
    · rename_i h
      rw [if_neg h]
  have unread : ∀ q, q ≠ 0 → tget u.notice.unreadView q =
      if (if ∃ l, (tget (s.line l).waiters q).isSome = true then some (ends .ended .cleared 255) else none).isSome = true ∧
        (s.port q).slot.isWorking = true then true else tget s.notice.unreadView q := fun q hq => by
    refine (views q).trans (if_congr ?_ rfl rfl)
    rw [waits, taken_port_other s hq]
    split <;> simp [*]
  obtain ⟨_, n, run, after, same⟩ := task_completes_telling (c := .clearMatrix 0 []) ready rfl rfl (.inr freeze) block own
    told_some told_none unread (level.trans (State.taken_port s 0).2) free pending
  obtain ⟨sameEvents, sameWatch, sameFlag, sameView⟩ := notice_fields same
  refine ⟨_, run, ?_, table, fun l => ?_, mix, cells, bank, players, ?_, ?_, ?_, ?_, cue, meter, clock⟩
  · rw [← List.countP_eq_length_filter]
    exact after
  · refine (lines l).trans ?_
    cases owner : (s.line l).owner <;> simp [owner, LineRec.cleaned]
  · refine EventsAdded.congr (fun q l e => (events q l e).trans (congrArg _ ?_)) sameEvents
    cases e with
    | handed => rfl
    | dropped => rfl
    | taken => exact (Bool.or_false _).symm
    | talkEnded => exact congrArg (q != 0 && ·) ((Reset.talker_any _ q).trans (beq_eq_decide _ _).symm)
  · exact sameWatch.trans (by rw [notice]; rfl)
  · exact sameFlag.trans (by rw [notice]; rfl)
  · exact sameView.trans (by rw [notice]; rfl)

/-! ## The expiry of a claim wait -/

/-- Settles O22: a wait that is due is ended, and the notice lines follow. -/
theorem claimWaitExpiryEndsTheWait : Obligations.ClaimWaitExpiryEndsTheWait := by
  refine ⟨fun l p s due => ?_, fun l p s early => ?_⟩
  · have reached : s.claimWaitDue l p = true := beq_iff_eq.2 due
    have run : exec (.claimWaitExpiry l p) s = .next (s.endWait l p .timeout).driveNotices := by
      refine congrArg Host.Outcome.next ((if_pos reached).trans ?_)
      rw [State.expireClaimWait, if_pos reached]
    obtain ⟨only, record, ports, level, views, notice⟩ := State.endWait_spec s l p .timeout
    obtain ⟨mix, cue, players, meter, clock, free, pending⟩ := State.endWait_frame s l p .timeout
    generalize s.endWait l p .timeout = u at *
    obtain ⟨driven, follow⟩ := State.driveNotices_spec u
    refine ⟨_, run, only, ?_, fun q => ?_, ?_, fun q hq => (ports q).trans (if_neg hq), ⟨level, free, pending⟩,
      ⟨?_, fun q hq => ?_⟩, mix, cue, players, meter, clock, ?_, follow⟩
    · exact record.trans (congrArg (fun w => { s.line l with waiters := w }) (congrArg LineRec.waiters record).symm)
    · exact (congrArg (fun r : LineRec => tget r.waiters q) record).trans (tget_tset _ _ _ _)
    · rw [← portDetail_eq]
      exact (ports p).trans (if_pos rfl)
    · refine (views p).trans ?_
      cases (s.port p).slot.isWorking <;> simp
    · exact (views q).trans (if_neg fun h => hq h.1)
    · rw [driven, notice]
  · exact congrArg Host.Outcome.next (if_neg (by simpa [State.claimWaitDue] using early))

end Sys2Proof.Proofs.OwnershipTasks


namespace Sys2Proof.Proofs.TalkTasks

open Sys2Proof Sys2Proof.Machine Sys2Proof.Safety Sys2Proof.Proofs.Courses Sys2Proof.Proofs.Effects Sys2Proof.Proofs.Tasks
  Sys2Proof.Proofs.OwnershipTasks

/-! ## TALK and UNTALK -/

/-- The talk slot is open to port `p`: the line is owned, by the port unless it is port 0, and no lower port holds the slot
(R108). -/
abbrev TalkOpen (s : State) (p : Port) (l : Line) : Prop :=
  (s.line l).owner.isSome = true ∧ ((s.line l).owner = some p ∨ p = 0) ∧ ∀ k ∈ (s.line l).talk, p ≤ k.talker

/-- TALK's checks pass exactly where the slot is open to the port (R108). -/
theorem talkDenied_eq_none (s : State) (p : Port) (l : Line) : s.talkDenied p l = none ↔ TalkOpen s p l := by
  unfold State.talkDenied TalkOpen
  cases (s.line l).owner with
  | none => simp
  | some o =>
    by_cases allowed : o = p ∨ p = 0
    · have passes : ¬ (o ≠ p ∧ p ≠ 0) := by tauto
      cases (s.line l).talk <;> simp [passes, allowed]
    · have stops : o ≠ p ∧ p ≠ 0 := by tauto
      simp [stops]

/-- UNTALK's check passes exactly for the slot's holder (R111). -/
theorem untalkDenied_eq_none (s : State) (p : Port) (l : Line) :
    s.untalkDenied p l = none ↔ (s.line l).talk.map TalkSlot.talker = some p := by
  unfold State.untalkDenied
  cases (s.line l).talk <;> simp

/-- The slot taken, updated or passed on: TALK-ENDED to a displaced port, then the slot with the writes of R100 (R101, R107). -/
theorem talkOn_spec (s : State) (l : Line) (x : TalkSlot) :
    OnlyLine s (s.talkOn l x) l ∧ (s.talkOn l x).line l = { s.line l with talk := some x } ∧
    TalkWritten s (s.talkOn l x) l x.gain x.duck (some x.source) ∧
    EventsAdded s (s.talkOn l x) (fun q k e => e == .talkEnded && k == l && talkEndedTo s l x.talker == some q) ∧
    (s.talkOn l x).notice = { s.notice with events := (s.talkOn l x).notice.events } := by
  obtain ⟨events, notice⟩ := State.raiseTalkEnded_spec s l x.talker
  obtain ⟨table, mix, -⟩ := State.raiseTalkEnded_frame s l x.talker
  obtain ⟨only, record, written⟩ := State.setTalk_spec (s.raiseTalkEnded l x.talker) l x
  obtain ⟨-, -, kept, -⟩ := State.setTalk_frame (s.raiseTalkEnded l x.talker) l x
  have unfolded : s.talkOn l x = (s.raiseTalkEnded l x.talker).setTalk l x := rfl
  generalize s.raiseTalkEnded l x.talker = v at *
  generalize s.talkOn l x = u at *
  subst unfolded
  have line : ∀ k, v.line k = s.line k := line_congr table
  refine ⟨?_, record.trans (by rw [line]), ?_, EventsAdded.congr events (by rw [kept]), by rw [kept]; exact notice⟩
  · simpa only [OnlyLine, line, table] using only
  · simpa only [TalkWritten, mix] using written

/-- TALK at its block where the slot is open (R107). -/
theorem taskTalk_open {s : State} {p : Port} {l : Line} (allowed : TalkOpen s p l) (x : Source) (g1 g0 d1 d0 : Byte) :
    s.taskTalk p [num l, num x, g1, g0, d1, d0] =
      (s.talkOn l ⟨p, x, wide g1 g0, min (wide d1 d0) 32768⟩).finish (portDetail ((s.line l).talk.map TalkSlot.talker)) := by
  simp [State.taskTalk, (talkDenied_eq_none s p l).2 allowed, clampDuck]

/-- UNTALK at its block by the slot's holder (R110). -/
theorem taskUntalk_holder {s : State} {p : Port} {l : Line} (holds : (s.line l).talk.map TalkSlot.talker = some p) :
    s.taskUntalk p [num l] = (s.clearTalks fun k => k == l).finish (tget s.mix.talkLevel l).current := by
  simp [State.taskUntalk, (untalkDenied_eq_none s p l).2 holds]

/-- Settles O23: the slot's moves with the writes of R100. -/
theorem talkTasksMoveTheSlot : Obligations.TalkTasksMoveTheSlot := by
  refine ⟨fun p l x g1 g0 d1 d0 s ready owned senior lower => ?_, fun p l s ready holds => ?_⟩
  · have block := taskTalk_open (s := s.taken p) ⟨owned, senior, lower⟩ x g1 g0 d1 d0
    obtain ⟨only, record, written, events, notice⟩ := talkOn_spec (s.taken p) l ⟨p, x, wide g1 g0, min (wide d1 d0) 32768⟩
    obtain ⟨cue, players, meter, clock, ports, free, pending⟩ :=
      State.talkOn_frame (s.taken p) l ⟨p, x, wide g1 g0, min (wide d1 d0) 32768⟩
    have detail : portDetail ((s.line l).talk.map TalkSlot.talker) = ((s.line l).talk.map fun k => k.talker.val).getD 255 := by
      cases (s.line l).talk <;> rfl
    generalize (s.taken p).talkOn l ⟨p, x, wide g1 g0, min (wide d1 d0) 32768⟩ = u at *
    obtain ⟨_, n, run, after, same⟩ := task_completes (c := .talk p [num l, num x, g1, g0, d1, d0]) ready rfl rfl (.inl rfl)
      block ⟨ports, by rw [notice], free, pending⟩
    obtain ⟨sameEvents, sameWatch, sameFlag, sameView⟩ := notice_fields same
    rw [← detail]
    exact ⟨_, run, after, only, record, written, EventsAdded.congr events sameEvents, sameWatch.trans (by rw [notice]; rfl),
      sameFlag.trans (by rw [notice]; rfl), sameView.trans (by rw [notice]; rfl), cue, players, meter, clock⟩
  · obtain ⟨only, record, written⟩ := State.clearTalk_spec (s.taken p) l
    obtain ⟨_, _, run, done⟩ := task_done (c := .untalk p [num l]) ready rfl rfl (.inl rfl)
      (taskUntalk_holder (s := s.taken p) holds) ⟨rfl, rfl, rfl, rfl⟩
    exact ⟨_, run, done, only, record, written, rfl, rfl, rfl, rfl⟩

end Sys2Proof.Proofs.TalkTasks


namespace Sys2Proof.Proofs.CueTasks

open Sys2Proof Sys2Proof.Machine Sys2Proof.Safety Sys2Proof.Proofs.Courses Sys2Proof.Proofs.Effects Sys2Proof.Proofs.Tasks
  Sys2Proof.Proofs.Link

/-! ## LOAD-BEGIN, LOAD-CHUNK and LOAD-END -/

/-- Frames of a time in milliseconds (R3). -/
theorem msFrames_eq (n : Nat) : msFrames n = 48 * n := Nat.mul_comm _ _

/-- LOAD-BEGIN at its block while the player is IDLE (R120, R121). -/
theorem taskLoadBegin_idle {s : State} {p : Port} {o c1 c0 : Byte} (some_ : wide c1 c0 ≠ 0)
    (inside : o.toNat + wide c1 c0 ≤ 256) (idle : (s.player p).state = .idle) (t1 t0 : Byte) :
    s.taskLoadBegin p [o, c1, c0, t1, t0] =
      ((s.markRange p o.toNat (wide c1 c0) false).setLoader p
        ⟨true, o.toNat, wide c1 c0, 0, 48 * max 100 (min (wide t1 t0) 10000), some (48 * max 100 (min (wide t1 t0) 10000)),
          if (s.loader p).loading then .abandoned else (s.loader p).outcome⟩).finish (max 100 (min (wide t1 t0) 10000)) := by
  have fits : ¬ 256 < o.toNat + wide c1 c0 := Nat.not_lt.2 inside
  simp [State.taskLoadBegin, some_, fits, idle, msFrames_eq, chunkTimeoutMs]

/-- Settles O24: the marks of the range, then the loader. -/
theorem loadBeginStartsALoad : Obligations.LoadBeginStartsALoad := by
  intro p o c1 c0 t1 t0 s ready some_ inside idle ms
  obtain ⟨_, _, run, done⟩ := task_done (c := .loadBegin p [o, c1, c0, t1, t0]) ready rfl rfl (.inl rfl)
    (taskLoadBegin_idle (s := s.taken p) some_ inside idle t1 t0) ⟨rfl, rfl, rfl, rfl⟩
  obtain ⟨marks, -, -⟩ := State.markRange_spec (s.taken p) p o.toNat (wide c1 c0) false
  obtain ⟨loaders, -, -⟩ := State.setLoader_spec ((s.taken p).markRange p o.toNat (wide c1 c0) false) p
    ⟨true, o.toNat, wide c1 c0, 0, 48 * ms, some (48 * ms),
      if (s.loader p).loading then .abandoned else (s.loader p).outcome⟩
  exact ⟨_, run, done, rfl, (loaders p).trans (if_pos rfl), fun q hq => (loaders q).trans (if_neg hq), marks, rfl, rfl, rfl,
    rfl, rfl⟩

/-- LOAD-CHUNK at its block while the load has room for the records (R123). -/
theorem taskLoadChunk_room {s : State} {p : Port} {args : List Byte} {n : Nat} (whole : args.length = 8 * n)
    (loading : (s.loader p).loading = true) (room : (s.loader p).received + n ≤ (s.loader p).declared) :
    s.taskLoadChunk p args =
      ((s.withCue { s.cue with
        mem := s.cue.mem.writeBytes (recordByte p ((s.loader p).offset + (s.loader p).received) 0) args }).setLoader p
          { s.loader p with received := (s.loader p).received + n, timer := some (s.loader p).timeout }).finish
        ((s.loader p).received + n) := by
  have records : args.length / 8 = n := by omega
  have fits : ¬ (s.loader p).declared < (s.loader p).received + n := Nat.not_lt.2 room
  simp [State.taskLoadChunk, records, loading, fits]

/-- Settles O25: one run of writes into the memory, then the loader. -/
theorem loadChunkStoresItsRecords : Obligations.LoadChunkStoresItsRecords := by
  intro p n args s ready least most whole loading room wf first
  have length : (decide (8 ≤ args.length) && decide (args.length ≤ 64) && args.length % 8 == 0) = true := by
    simp only [Bool.and_eq_true, decide_eq_true_eq, beq_iff_eq]
    omega
  obtain ⟨_, _, run, done⟩ := task_done (c := .loadChunk p args) ready rfl length (.inl rfl)
    (taskLoadChunk_room (s := s.taken p) whole loading room) ⟨rfl, rfl, rfl, rfl⟩
  obtain ⟨loaders, -, -⟩ := State.setLoader_spec
    ((s.taken p).withCue { s.cue with mem := s.cue.mem.writeBytes first args }) p
    { s.loader p with received := (s.loader p).received + n, timer := some (s.loader p).timeout }
  exact ⟨_, run, done, rfl, Memory.wf_writeBytes args s.cue.mem first wf,
    fun k h => Memory.read_writeBytes_inside args s.cue.mem first k wf h,
    fun a outside => Memory.read_writeBytes_outside args s.cue.mem first a outside, (loaders p).trans (if_pos rfl),
    fun q hq => (loaders q).trans (if_neg hq), rfl, rfl, rfl, rfl, rfl⟩

/-- LOAD-END at its block while a load is in progress (R125). -/
theorem taskLoadEnd_loading {s : State} {p : Port} (loading : (s.loader p).loading = true) :
    s.taskLoadEnd p =
      if (s.loader p).received = (s.loader p).declared then
        ((s.markRange p (s.loader p).offset (s.loader p).declared true).setLoader p ((s.loader p).ended .done)).finish
          (s.loader p).received
      else ⟨s.setLoader p ((s.loader p).ended .short), some (ends .ended .short (s.loader p).received)⟩ := by
  simp [State.taskLoadEnd, loading, ends, Result.plain]

/-- The expiry of a chunk timer that is due (R119). -/
theorem chunkTimerExpiry_due {s : State} {p : Port} (loading : (s.loader p).loading = true)
    (due : (s.loader p).timer = some 0) :
    exec (.chunkTimerExpiry p) s = .next (s.setLoader p ((s.loader p).ended .timedOut)) := by
  refine congrArg Host.Outcome.next (if_pos ?_)
  simp [State.chunkTimerDue, loading, due]

/-- Settles O26, by the counts and by the timer. -/
theorem loadsEnd : Obligations.LoadsEnd := by
  refine ⟨fun p s ready loading => ?_, fun p s loading due => ?_, fun p s early => ?_⟩
  · have block := taskLoadEnd_loading (s := s.taken p) loading
    by_cases full : (s.loader p).received = (s.loader p).declared
    · rw [if_pos (show ((s.taken p).loader p).received = ((s.taken p).loader p).declared from full)] at block
      obtain ⟨_, _, run, done⟩ := task_done (c := .loadEnd p []) ready rfl rfl (.inl rfl) block ⟨rfl, rfl, rfl, rfl⟩
      obtain ⟨marks, -, -⟩ := State.markRange_spec (s.taken p) p (s.loader p).offset (s.loader p).declared true
      obtain ⟨loaders, -, -⟩ := State.setLoader_spec
        ((s.taken p).markRange p (s.loader p).offset (s.loader p).declared true) p ((s.loader p).ended .done)
      refine ⟨_, run, rfl, fun q hq => (loaders q).trans (if_neg hq), ?_, rfl, rfl, rfl, rfl, rfl⟩
      rw [if_pos full]
      exact ⟨done, (loaders p).trans (if_pos rfl), marks⟩
    · rw [if_neg (show ((s.taken p).loader p).received ≠ ((s.taken p).loader p).declared from full)] at block
      obtain ⟨_, _, run, done⟩ := task_done (c := .loadEnd p []) ready rfl rfl (.inl rfl) block ⟨rfl, rfl, rfl, rfl⟩
      obtain ⟨loaders, -, -⟩ := State.setLoader_spec (s.taken p) p ((s.loader p).ended .short)
      refine ⟨_, run, rfl, fun q hq => (loaders q).trans (if_neg hq), ?_, rfl, rfl, rfl, rfl, rfl⟩
      rw [if_neg full]
      exact ⟨done, (loaders p).trans (if_pos rfl), rfl⟩
  · obtain ⟨loaders, -, -⟩ := State.setLoader_spec s p ((s.loader p).ended .timedOut)
    exact ⟨_, chunkTimerExpiry_due loading due, (loaders p).trans (if_pos rfl), fun q hq => (loaders q).trans (if_neg hq),
      rfl, rfl, rfl, rfl, rfl, rfl, rfl, rfl, rfl, rfl⟩
  · refine congrArg Host.Outcome.next (if_neg ?_)
    obtain idle | other := early
    · simp [State.chunkTimerDue, idle]
    · simp [State.chunkTimerDue, other]

/-! ## RUN, HALT and SEQ-STATUS -/

/-- RUN at its block while player and loader are IDLE (R141). -/
theorem taskRun_idle {s : State} {p : Port} (idle : (s.player p).state = .idle) (still : (s.loader p).loading = false)
    (a : Byte) :
    s.taskRun p [0, a] = (s.setPlayer p { s.player p with state := .stepping, addr := a.toNat }).finish a.toNat := by
  have address : wide 0#8 a = a.toNat := by simp [wide]
  have fits : ¬ 255 < a.toNat := by omega
  simp [State.taskRun, address, fits, idle, still]

/-- Settles O27, by the player's state. -/
theorem runStartsAndHaltEndsThePlayer : Obligations.RunStartsAndHaltEndsThePlayer := by
  refine ⟨fun p a s ready idle still => ?_, fun p s ready => ?_⟩
  · obtain ⟨_, _, run, done⟩ := task_done (c := .run p [0, a]) ready rfl rfl (.inl rfl)
      (taskRun_idle (s := s.taken p) idle still a) ⟨rfl, rfl, rfl, rfl⟩
    have players := State.setPlayer_spec (s.taken p) p { s.player p with state := .stepping, addr := a.toNat }
    exact ⟨_, run, done, (players p).trans (if_pos rfl), fun q hq => (players q).trans (if_neg hq), rfl, rfl, rfl, rfl, rfl⟩
  · by_cases idle : (s.player p).state = .idle
    · have block : (s.taken p).taskHalt p = (s.taken p).finish 256 := if_pos idle
      obtain ⟨_, _, run, done⟩ := task_done (c := .halt p []) ready rfl rfl (.inl rfl) block ⟨rfl, rfl, rfl, rfl⟩
      refine ⟨_, run, fun q _ => rfl, ?_, rfl, rfl, rfl, rfl⟩
      rw [if_pos idle]
      exact ⟨done, rfl, rfl⟩
    · have block : (s.taken p).taskHalt p =
          ((s.taken p).endPlayer p .halted (s.player p).addr).finish (s.player p).addr := if_neg idle
      obtain ⟨_, _, run, done⟩ := task_done (c := .halt p []) ready rfl rfl (.inl rfl) block ⟨rfl, rfl, rfl, rfl⟩
      obtain ⟨players, discarded⟩ := State.endPlayer_spec (s.taken p) p .halted (s.player p).addr
      refine ⟨_, run, fun q hq => (players q).trans (if_neg hq), ?_, rfl, rfl, rfl, rfl⟩
      rw [if_neg idle]
      exact ⟨done, (players p).trans (if_pos rfl), discarded⟩

/-- Settles O28: the output's fields one by one. -/
theorem seqStatusReportsLoaderAndPlayer : Obligations.SeqStatusReportsLoaderAndPlayer := by
  intro p s ready d x output
  obtain ⟨_, _, run, done⟩ := task_done (c := .seqStatus p []) ready rfl rfl (.inl rfl)
    (show (s.taken p).taskSeqStatus p = (s.taken p).finishWith x.addr ((s.taken p).seqStatusOutput p) from rfl)
    ⟨rfl, rfl, rfl, rfl⟩
  have written : (s.taken p).seqStatusOutput p = output := by
    change s.seqStatusOutput p = output
    simp only [State.seqStatusOutput, beBytes_one, beBytes_two, beBytes_three, one_toNat]
    congr 10
    · change x.state.timer.bytes = _
      cases x.state with
      | awaiting t l c m => cases t <;> exact beBytes_three _
      | _ => exact beBytes_three _
    · change x.endReason.faultCode = _
      cases x.endReason with
      | fault k => cases k <;> rfl
      | _ => rfl
  rw [written] at done
  exact ⟨_, run, done, rfl, rfl, rfl, rfl, rfl, rfl⟩

end Sys2Proof.Proofs.CueTasks


namespace Sys2Proof.Proofs.UnitTasks

open Sys2Proof Sys2Proof.Machine Sys2Proof.Safety Sys2Proof.Proofs.Courses Sys2Proof.Proofs.Effects Sys2Proof.Proofs.Tasks
  Sys2Proof.Proofs.Link Sys2Proof.Proofs.OwnershipTasks

/-! ## WATCH and READ-NOTICES -/

/-- The Notice Unit after WATCH (R152). -/
def watched (n : NoticeUnit) (p : Port) (args : List Byte) : NoticeUnit :=
  { n with watch := tset n.watch p (tmake fun l => lineMapHas args l) }

/-- WATCH at its block (R152). -/
theorem taskWatch_eq (s : State) (p : Port) (args : List Byte) :
    s.taskWatch p args = (s.withNotice (watched s.notice p args)).finish
      ((List.finRange 24).filter fun l => lineMapHas args l && tget s.notice.latchView l).length := by
  simp [State.taskWatch, State.watchedLatched, watched]

/-- A line has an entry exactly where its set of kinds is not empty (R145). -/
theorem any_eq (e : EventSet) : e.any = (e != EventSet.empty) := by
  obtain ⟨h, t, d, k⟩ := e
  revert h t d k
  decide

/-- The Notice Unit after READ-NOTICES (R154). -/
def emptied (n : NoticeUnit) (p : Port) : NoticeUnit := { n with events := tset n.events p (tall EventSet.empty) }

/-- READ-NOTICES at its block (R154). -/
theorem taskReadNotices_eq (s : State) (p : Port) :
    s.taskReadNotices p =
      (s.withNotice (emptied s.notice p)).finishWith (s.eventLines p).length (s.noticesOutput p) := rfl

/-- The lines with an entry in the words of the statements (R154). -/
theorem eventLines_eq (s : State) (p : Port) :
    s.eventLines p = (List.finRange 24).filter fun l => tget (tget s.notice.events p) l != EventSet.empty := by
  simp only [State.eventLines, any_eq]

/-- A set of kinds as a number in the words of the statements (R188). -/
theorem code_eq (e : EventSet) :
    e.code = (if e.handed then 1 else 0) + (if e.taken then 2 else 0) + (if e.dropped then 4 else 0) +
      if e.talkEnded then 8 else 0 := by
  obtain ⟨h, t, d, k⟩ := e
  revert h t d k
  decide

/-- The output of READ-NOTICES in the words of the statements (R154, R188). -/
theorem noticesOutput_eq (s : State) (p : Port) :
    s.noticesOutput p = one (s.eventLines p).length ++ one (s.watchedLatched p).length ++
      [flagByte (p == 0 && s.notice.refChange)] ++
      ((s.eventLines p).flatMap fun l => num l :: one (tget (tget s.notice.events p) l).code) ++
      (s.watchedLatched p).map num := by
  have attention : ∀ ls : List Line, (ls.flatMap fun l => one (l.val + 1)) = ls.map num := fun ls => by
    induction ls with
    | nil => rfl
    | cons l rest ih => exact congrArg (num l :: ·) ih
  simp only [State.noticesOutput, beBytes_one, one_toNat, attention]
  rfl

/-- Settles O36: the Notice Unit's block changes one table, and the notice lines follow. -/
theorem watchAndReadNotices : Obligations.WatchAndReadNotices := by
  refine ⟨?watch, ?readNotices⟩
  case watch =>
    intro p m0 m1 m2 s ready watches
    obtain ⟨_, n, run, taken, same⟩ := task_completes (c := .watch p [m0, m1, m2]) ready rfl rfl (.inl rfl)
      (taskWatch_eq (s.taken p) p [m0, m1, m2]) ⟨rfl, rfl, rfl, rfl⟩
    obtain ⟨-, sameWatch, -, -⟩ := notice_fields same
    refine ⟨_, run, taken, fun q l => ?_, ?_, rfl, rfl, rfl, rfl, rfl, rfl⟩
    · refine (congrArg (fun w => tget (tget w q) l) sameWatch).trans ?_
      by_cases own : q = p
      · simp [watched, own, lineMapHas, watches]
      · simp [watched, own, tget_tset]
    · rw [State.withNotice_notice, same]
      rfl
  case readNotices =>
    intro p s ready entries latched kinds
    obtain ⟨_, n, run, taken, same⟩ := task_completes (c := .readNotices p []) ready rfl rfl (.inl rfl)
      (taskReadNotices_eq (s.taken p) p) ⟨rfl, rfl, rfl, rfl⟩
    obtain ⟨sameEvents, -, -, -⟩ := notice_fields same
    rw [noticesOutput_eq, eventLines_eq] at taken
    simp only [code_eq] at taken
    refine ⟨_, run, taken, fun q => ?_, ?_, rfl, rfl, rfl, rfl, rfl, rfl⟩
    · exact (congrArg (fun e => tget e q) sameEvents).trans (tget_tset _ _ _ _)
    · rw [State.withNotice_notice, same]
      rfl

/-! ## SNAP and READ-SNAP -/

/-- SNAP at its block while the buffer is not another port's (R159). -/
theorem taskSnap_open {s : State} {p : Port} (unlocked : ∀ b ∈ s.meter.buffer, b.holder = p) :
    s.taskSnap p = ⟨s.withMeter { s.meter with waiting := tset s.meter.waiting p true }, none⟩ := by
  unfold State.taskSnap State.snapHolder
  cases buffer : s.meter.buffer with
  | none => rfl
  | some b => simp [unlocked b (by rw [buffer]; rfl)]

/-- The entries of READ-SNAP in the words of the statements (R163, R188). -/
theorem entryRun_eq (b : Snapshot) (first count : Nat) :
    b.entryRun first count = ((List.finRange 32).filter fun i => first ≤ i.val && i.val < first + count).flatMap fun i =>
      num i :: (three (tget b.entries i).peak ++ two (tget b.entries i).clips) := by
  simp only [Snapshot.entryRun, Meter.entryBytes, beBytes_one, beBytes_two, beBytes_three]
  rfl

/-- READ-SNAP at its block by the buffer's holder (R163). -/
theorem taskReadSnap_holder {s : State} {p : Port} {first count : Byte} {b : Snapshot} (buffer : s.meter.buffer = some b)
    (holds : b.holder = p) (inside : first.toNat + count.toNat ≤ 32) (unlock : Bool) :
    s.taskReadSnap p [first, count, flagByte unlock] =
      (s.withMeter { s.meter with buffer := if unlock then none else some b }).finishWith count.toNat
        (b.entryRun first.toNat count.toNat) := by
  have fits : ¬ 32 < first.toNat + count.toNat := Nat.not_lt.2 inside
  have kept : s.withMeter { s.meter with buffer := some b } = s := by rw [← buffer]; rfl
  cases unlock <;> simp [State.taskReadSnap, buffer, holds, fits, kept]

/-- Settles O37: the Meter Unit's tasks and the buffer's timer. -/
theorem snapReadSnapAndExpiry : Obligations.SnapReadSnapAndExpiry := by
  refine ⟨fun p s ready unlocked => ?_, fun p first count unlock b s ready buffer holds inside => ?_,
    fun b s buffer due => ?_, fun s early => ?_⟩
  · obtain ⟨_, _, run, goes⟩ := task_goesOn (c := .snap p []) ready rfl rfl (.inl rfl)
      (taskSnap_open (s := s.taken p) unlocked) ⟨rfl, rfl, rfl, rfl⟩
    exact ⟨_, run, goes, rfl, fun q => tget_tset _ _ _ _, rfl, rfl, rfl, rfl, rfl⟩
  · have block := taskReadSnap_holder (s := s.taken p) buffer holds inside unlock
    obtain ⟨_, _, run, done⟩ := task_done (c := .readSnap p [first, count, flagByte unlock]) ready rfl rfl (.inl rfl)
      block ⟨rfl, rfl, rfl, rfl⟩
    rw [entryRun_eq] at done
    exact ⟨_, run, done, rfl, rfl, rfl, rfl, rfl, rfl⟩
  · have reached : s.snapshotDue = true := by simp [State.snapshotDue, buffer, due]
    exact ⟨_, congrArg Host.Outcome.next (if_pos reached), rfl, rfl, rfl, rfl, rfl, rfl, rfl, rfl, rfl, rfl⟩
  · refine congrArg Host.Outcome.next (if_neg ?_)
    cases buffer : s.meter.buffer with
    | none => simp [State.snapshotDue, buffer]
    | some b => simpa [State.snapshotDue, buffer] using early b (by rw [buffer]; rfl)

/-! ## REF-ENABLE, REF-SELECT and CLOCK-STATUS -/

/-- An OFF reference turned on (R171, log 9). -/
theorem startAcquiring_spec (s : State) (r : RefId) :
    (∀ k, (s.startAcquiring r).ref k =
      if k = r then { s.ref r with state := .acquiring, count := 0, armed := false, reached := false } else s.ref k) ∧
    (s.startAcquiring r).clock = (if r.val = 3 then
        { s.clock with refs := (s.startAcquiring r).clock.refs, marker := none, sinceMarker := none, missed := 0 }
      else { s.clock with refs := (s.startAcquiring r).clock.refs }) := by
  obtain ⟨refs, clock⟩ := State.setRef_spec s r
    { s.ref r with state := .acquiring, count := 0, armed := false, reached := false }
  have link : r = RefId.lnk ↔ r.val = 3 := Fin.ext_iff
  by_cases h : r.val = 3
  · have unfolded : s.startAcquiring r = (s.setRef r
        { s.ref r with state := .acquiring, count := 0, armed := false, reached := false }).withClock
        { (s.setRef r { s.ref r with state := .acquiring, count := 0, armed := false, reached := false }).clock with
          marker := none, sinceMarker := none, missed := 0 } := if_pos (link.2 h)
    rw [unfolded, if_pos h]
    exact ⟨refs, rfl⟩
  · have unfolded : s.startAcquiring r = s.setRef r
        { s.ref r with state := .acquiring, count := 0, armed := false, reached := false } := if_neg fun e => h (link.1 e)
    rw [unfolded, if_neg h]
    exact ⟨refs, clock⟩

/-- What REF-ENABLE makes of the part (R171). -/
def enabled (s : State) (r : RefId) (on : Bool) : State :=
  if (s.ref r).state = .off then if on then s.startAcquiring r else s
  else if on then s
  else s.setRef r { s.ref r with state := .off, count := 0, armed := false, reached := false }

/-- REF-ENABLE at its block, by port 0 (R171). -/
theorem taskRefEnable_senior {s : State} {r : RefId} {on : Bool}
    (allowed : on = false → r.val ≠ 0 ∧ r ≠ s.clock.selected) :
    s.taskRefEnable 0 [num0 r, flagByte on] = (enabled s r on).finish (s.ref r).state.code := by
  cases on with
  | true => by_cases off : (s.ref r).state = .off <;> simp [State.taskRefEnable, enabled, off]
  | false =>
    obtain ⟨notInt, other⟩ := allowed rfl
    have passes : ¬ r = RefId.int := fun e => notInt (by rw [e]; rfl)
    by_cases off : (s.ref r).state = .off <;> simp [State.taskRefEnable, enabled, off, passes, other.symm]

/-- REF-ENABLE changes the clock alone. -/
theorem enabled_frame (s : State) (r : RefId) (on : Bool) :
    (enabled s r on).lineTable = s.lineTable ∧ (enabled s r on).mix = s.mix ∧ (enabled s r on).cue = s.cue ∧
    (enabled s r on).players = s.players ∧ (enabled s r on).meter = s.meter ∧ (enabled s r on).notice = s.notice ∧
    (enabled s r on).ports = s.ports ∧ (enabled s r on).free = s.free ∧ (enabled s r on).pending = s.pending := by
  unfold enabled
  (repeat' split) <;> simp

/-- The reference records and the clock after REF-ENABLE, by the reference's state (R171). -/
theorem enabled_spec (s : State) (r : RefId) (on : Bool) :
    (∀ k, k ≠ r → (enabled s r on).ref k = s.ref k) ∧
    (if on = true ∧ (s.ref r).state = .off then
        ((enabled s r on).ref r).state = .acquiring ∧ ((enabled s r on).ref r).count = 0
      else if on = true then (enabled s r on).ref r = s.ref r
      else ((enabled s r on).ref r).state = .off ∧ ((s.ref r).state = .off → (enabled s r on).ref r = s.ref r) ∧
        ((s.ref r).state ≠ .off → ((enabled s r on).ref r).count = 0)) ∧
    (enabled s r on).clock = (if r.val = 3 ∧ on = true ∧ (s.ref r).state = .off then
        { s.clock with refs := (enabled s r on).clock.refs, marker := none, sinceMarker := none, missed := 0 }
      else { s.clock with refs := (enabled s r on).clock.refs }) := by
  by_cases off : (s.ref r).state = .off
  · cases on with
    | true =>
      obtain ⟨refs, clock⟩ := startAcquiring_spec s r
      have unfolded : enabled s r true = s.startAcquiring r := by simp [enabled, off]
      have self := (refs r).trans (if_pos rfl)
      rw [unfolded, if_pos ⟨rfl, off⟩, self]
      refine ⟨fun k hk => (refs k).trans (if_neg hk), ⟨rfl, rfl⟩, clock.trans ?_⟩
      simp [off]
    | false =>
      have unfolded : enabled s r false = s := by simp [enabled, off]
      rw [unfolded]
      simp [off]
  · cases on with
    | true =>
      have unfolded : enabled s r true = s := by simp [enabled, off]
      rw [unfolded]
      simp [off]
    | false =>
      obtain ⟨refs, clock⟩ := State.setRef_spec s r { s.ref r with state := .off, count := 0, armed := false, reached := false }
      have unfolded : enabled s r false =
          s.setRef r { s.ref r with state := .off, count := 0, armed := false, reached := false } := by simp [enabled, off]
      have self := (refs r).trans (if_pos rfl)
      rw [unfolded, self]
      refine ⟨fun k hk => (refs k).trans (if_neg hk), ?_, clock.trans ?_⟩
      · simp [off]
      · simp

/-- REF-SELECT at its block, by port 0, of a LOCKED reference (R173). -/
theorem taskRefSelect_locked {s : State} {r : RefId} (locked : (s.ref r).state = .locked) :
    s.taskRefSelect 0 [num0 r] = (s.withClock (if r = s.clock.selected then s.clock
        else if s.clock.running then { s.clock with selected := r, generator := .following, pull := 4800 }
        else { s.clock with selected := r })).finish s.clock.selected.val := by
  by_cases same : r = s.clock.selected
  · subst same
    simp [State.taskRefSelect, locked]
  · cases running : s.clock.running <;> simp [State.taskRefSelect, locked, same, running, Config.pullFrames]

/-- The output of CLOCK-STATUS, its fields in the words of the statements (R175, R188). -/
theorem clockStatusOutput_eq (s : State) :
    s.clockStatusOutput =
      one (s.ref 0).state.code ++ one (s.ref 1).state.code ++ one (s.ref 2).state.code ++ one (s.ref 3).state.code ++
      two (s.ref 0).count ++ two (s.ref 1).count ++ two (s.ref 2).count ++ two (s.ref 3).count ++
      one s.clock.selected.val ++ one s.clock.generator.code ++ [flagByte s.clock.running] := by
  have refs : List.finRange 4 = [0, 1, 2, 3] := rfl
  simp only [State.clockStatusOutput, beBytes_one, beBytes_two, one_toNat, refs, List.flatMap_cons, List.flatMap_nil,
    List.append_nil, List.append_assoc]

/-- CLOCK-STATUS at its block (R175). -/
theorem taskClockStatus_eq (s : State) (p : Port) :
    s.taskClockStatus p =
      (s.withNotice { s.notice with refChange := if p = 0 then false else s.notice.refChange }).finishWith
        (if p = 0 ∧ s.notice.refChange then 1 else 0) s.clockStatusOutput := by
  by_cases senior : p = 0
  · cases flag : s.notice.refChange <;> simp [State.taskClockStatus, senior, flag]
  · have kept : s.withNotice { s.notice with refChange := s.notice.refChange } = s := rfl
    simp only [State.taskClockStatus, senior, if_false, false_and, kept]

/-- Settles O39: the Frame Clock Unit's tasks one by one. -/
theorem referenceTasksAndClockStatus : Obligations.ReferenceTasksAndClockStatus := by
  refine ⟨?enable, ?select, ?status⟩
  case enable =>
    intro r on s ready allowed
    obtain ⟨lines, mix, cue, players, meter, notice, ports, free, pending⟩ := enabled_frame (s.taken 0) r on
    obtain ⟨others, self, clock⟩ := enabled_spec (s.taken 0) r on
    have block := taskRefEnable_senior (s := s.taken 0) allowed
    generalize enabled (s.taken 0) r on = u at *
    obtain ⟨_, _, run, done⟩ := task_done (c := .refEnable 0 [num0 r, flagByte on]) ready rfl rfl (.inl rfl) block
      ⟨ports, notice, free, pending⟩
    have code : (s.ref r).state.code = match (s.ref r).state with | .off => 0 | .acquiring => 1 | .locked => 2 := by
      cases (s.ref r).state <;> rfl
    rw [show ((s.taken 0).ref r).state.code = _ from code] at done
    exact ⟨_, run, done, others, self, clock, lines, mix, cue, players, meter⟩
  case select =>
    intro r s ready locked
    obtain ⟨_, _, run, done⟩ := task_done (c := .refSelect 0 [num0 r]) ready rfl rfl (.inl rfl)
      (taskRefSelect_locked (s := s.taken 0) locked) ⟨rfl, rfl, rfl, rfl⟩
    exact ⟨_, run, done, rfl, rfl, rfl, rfl, rfl, rfl⟩
  case status =>
    intro p s ready state output
    obtain ⟨_, n, run, taken, same⟩ := task_completes (c := .clockStatus p []) ready rfl rfl (.inl rfl)
      (taskClockStatus_eq (s.taken p) p) ⟨rfl, rfl, rfl, rfl⟩
    have written : (s.taken p).clockStatusOutput = output := by
      have byte : ∀ r, one (s.ref r).state.code = [state r] := fun r => by
        simp only [state]
        cases (s.ref r).state <;> rfl
      have generator : one s.clock.generator.code = [if s.clock.generator = .following then 0 else 1] := by
        cases s.clock.generator <;> rfl
      change s.clockStatusOutput = output
      rw [clockStatusOutput_eq, byte, byte, byte, byte, generator]
      simp [output, num0, one]
    rw [written] at taken
    refine ⟨_, run, taken, ?_, rfl, rfl, rfl, rfl, rfl, rfl⟩
    rw [State.withNotice_notice, same]
    rfl

end Sys2Proof.Proofs.UnitTasks


namespace Sys2Proof.Proofs.TaskRefusals

open Sys2Proof Sys2Proof.Machine Sys2Proof.Safety Sys2Proof.Proofs.Refusals

/-! ## A field is in range exactly where it reads as an operand -/

/-- A field read under a pair of bounds. -/
theorem inRange_eq_isSome {α : Type} {lo hi n : Nat} (f : lo ≤ n ∧ n ≤ hi → α) :
    inRange lo hi n = (if h : lo ≤ n ∧ n ≤ hi then some (f h) else none).isSome := by
  rw [inRange, ← Bool.decide_and]
  by_cases h : lo ≤ n ∧ n ≤ hi
  · rw [dif_pos h, decide_eq_true h]
    rfl
  · rw [dif_neg h, decide_eq_false h]
    rfl

/-- A number from 1 to 24 is a line's. -/
theorem line_inRange (n : Nat) : inRange 1 24 n = (lineArg n).isSome := inRange_eq_isSome _

/-- A number from 1 to 16 is a source's. -/
theorem source_inRange (n : Nat) : inRange 1 16 n = (sourceArg n).isSome := inRange_eq_isSome _

/-- A number from 1 to 8 is a bus's. -/
theorem bus_inRange (n : Nat) : inRange 1 8 n = (busArg n).isSome := inRange_eq_isSome _

/-- A number from 1 to 40 is a contributor's. -/
theorem contributor_inRange (n : Nat) : inRange 1 40 n = (contributorArg n).isSome := inRange_eq_isSome _

/-- A number from 0 to 3 is a port's. -/
theorem port_inRange (n : Nat) : inRange 0 3 n = (portArg n).isSome := by
  by_cases h : n < 4 <;> simp [inRange, portArg, h] <;> omega

/-- A number from 0 to 3 is a reference's. -/
theorem ref_inRange (n : Nat) : inRange 0 3 n = (refArg n).isSome := by
  by_cases h : n < 4 <;> simp [inRange, refArg, h] <;> omega

/-- 0 or 1 is a setting. -/
theorem setting_inRange (n : Nat) : inRange 0 1 n = (settingArg n).isSome := by
  obtain rfl | rfl | h : n = 0 ∨ n = 1 ∨ 1 < n := by omega
  · rfl
  · rfl
  · have h0 : n ≠ 0 := by omega
    have h1 : n ≠ 1 := by omega
    simp [inRange, settingArg, h0, h1, h]

/-- A number from 0 to 8 is a placement's bus field. -/
theorem placeBus_inRange (n : Nat) : inRange 0 8 n = (placeBusArg n).isSome := by
  by_cases h0 : n = 0
  · subst h0
    rfl
  · by_cases h : n ≤ 8
    · simp [inRange, placeBusArg, busArg, h0, h]
      omega
    · simp [inRange, placeBusArg, busArg, h0, h]

/-- A number from 0 to 16 is a placement's hold source field. -/
theorem hold_inRange (n : Nat) : inRange 0 16 n = (holdArg n).isSome := by
  by_cases h0 : n = 0
  · subst h0
    rfl
  · by_cases h : n ≤ 16
    · simp [inRange, holdArg, sourceArg, h0, h]
      omega
    · simp [inRange, holdArg, sourceArg, h0, h]

/-- The line of a contributor field, where it is a line's. -/
theorem line?_of_contributorArg {n : Nat} {c : Contributor} (h : contributorArg n = some c) : Contributor.line? c = lineArg n := by
  unfold contributorArg at h
  split at h
  · rename_i bounds
    obtain rfl := Option.some.inj h
    by_cases small : n - 1 < 24
    · have named : 1 ≤ n ∧ n ≤ 24 := by omega
      simp [Contributor.line?, lineArg, small, named]
    · have other : ¬ (1 ≤ n ∧ n ≤ 24) := by omega
      simp only [Contributor.line?, lineArg, small, other, dite_false]
  · cases h

/-! ## The owner of a field's line or bus -/

/-- The owner of the line that a field names. -/
theorem ownerOfLine_some {s : State} {n : Nat} {l : Line} (h : lineArg n = some l) : ownerOfLine s n = (s.line l).owner := by
  simp [ownerOfLine, h]

/-- The owner of the bus that a field names. -/
theorem ownerOfBus_some {s : State} {n : Nat} {b : Bus} (h : busArg n = some b) : ownerOfBus s n = some (s.busOwner b) := by
  simp [ownerOfBus, h]

/-- The talk-slot holder of the line that a field names. -/
theorem talkerOfLine_some {s : State} {n : Nat} {l : Line} (h : lineArg n = some l) :
    talkerOfLine s n = (s.line l).talk.map TalkSlot.talker := by
  simp [talkerOfLine, h]

/-! ## The tables of SET-CELL, PARK, PLACE, TRIM, TONE and ACK-ATTN at their blocks -/

/-- R43 checks 3 to 6. -/
theorem taskSetCell_refuses (s : State) (p : Port) (args : List Byte) :
    BlockRefuses (fun t => t.taskSetCell p args) s
      [(!inRange 1 40 (byteAt args 0), .badArg, 0), (!inRange 1 8 (byteAt args 1), .badArg, 0),
        (ownerOfBus s (byteAt args 1) != some p, .notOwner, portDetail (ownerOfBus s (byteAt args 1))),
        (inRange 1 24 (byteAt args 0) && ownerOfLine s (byteAt args 0) != some p, .notOwner,
          portDetail (ownerOfLine s (byteAt args 0)))] := by
  simp only [BlockRefuses, forall_firstCheck_cons, contributor_inRange, bus_inRange, line_inRange, State.taskSetCell]
  cases hc : contributorArg (byteAt args 0) with
  | none => simp
  | some c =>
    cases hb : busArg (byteAt args 1) with
    | none => simp
    | some b =>
      simp only [ownerOfBus_some hb, State.cellDenied, State.busDenied]
      by_cases own : s.busOwner b = p
      · rw [line?_of_contributorArg hc]
        cases hl : lineArg (byteAt args 0) with
        | none => simp [own, firstCheck]
        | some l => by_cases lineOwn : (s.line l).owner = some p <;> simp [own, ownerOfLine_some hl, State.lineDenied, lineOwn, firstCheck]
      · simp [own, portDetail]

/-- R46 checks 3 and 4. -/
theorem taskPark_refuses (s : State) (p : Port) (args : List Byte) :
    BlockRefuses (fun t => t.taskPark p args) s
      [(p != 0, .notSenior, 255), (!inRange 1 16 (byteAt args 0), .badArg, 0)] := by
  simp only [BlockRefuses, forall_firstCheck_cons, source_inRange, bne_iff_ne, bne_eq_false_iff_eq]
  refine ⟨fun junior => if_pos junior, fun senior => ⟨fun outside => ?_, fun _ => forall_firstCheck_nil⟩⟩
  cases hx : sourceArg (byteAt args 0) with
  | none => simp [State.taskPark, senior, hx]
  | some x => simp [hx] at outside

/-- The bus of a placement's field, where it names one. -/
theorem busArg_of_placeBusArg {n : Nat} {bus : Option Bus} (h : placeBusArg n = some bus) : busArg n = bus := by
  unfold placeBusArg at h
  split at h
  · rename_i zero
    subst zero
    obtain rfl := Option.some.inj h
    rfl
  · cases hb : busArg n <;> simp_all

/-- R64 checks 3 to 7. -/
theorem taskPlace_refuses (s : State) (p : Port) (args : List Byte) :
    BlockRefuses (fun t => t.taskPlace p args) s
      [(!inRange 1 24 (byteAt args 0), .badArg, 0), (!inRange 0 8 (byteAt args 1), .badArg, 0),
        (!inRange 0 16 (byteAt args 2), .badArg, 0),
        (ownerOfLine s (byteAt args 0) != some p, .notOwner, portDetail (ownerOfLine s (byteAt args 0))),
        (inRange 1 8 (byteAt args 1) && ownerOfBus s (byteAt args 1) != some p, .notOwner,
          portDetail (ownerOfBus s (byteAt args 1)))] := by
  simp only [BlockRefuses, forall_firstCheck_cons, placeBus_inRange, hold_inRange, bus_inRange, line_inRange,
    State.taskPlace]
  cases hl : lineArg (byteAt args 0) with
  | none => simp
  | some l =>
    cases hb : placeBusArg (byteAt args 1) with
    | none => simp
    | some bus =>
      cases hh : holdArg (byteAt args 2) with
      | none => simp
      | some hold =>
        simp only [ownerOfLine_some hl, busArg_of_placeBusArg hb, State.placeDenied, State.lineDenied]
        by_cases own : (s.line l).owner = some p
        · cases bus with
          | none => simp [own, firstCheck]
          | some b =>
            have bus := ownerOfBus_some (s := s) (busArg_of_placeBusArg hb)
            by_cases busOwn : s.busOwner b = p <;> simp [own, bus, State.busDenied, busOwn, firstCheck, portDetail]
        · simp [own]

/-- R66 check 3 and 4. -/
theorem taskTrim_refuses (s : State) (p : Port) (args : List Byte) :
    BlockRefuses (fun t => t.taskTrim p args) s
      [(!inRange 1 24 (byteAt args 0), .badArg, 0),
        (ownerOfLine s (byteAt args 0) != some p, .notOwner, portDetail (ownerOfLine s (byteAt args 0)))] := by
  simp only [BlockRefuses, forall_firstCheck_cons, line_inRange, State.taskTrim]
  cases hl : lineArg (byteAt args 0) with
  | none => simp
  | some l =>
    by_cases own : (s.line l).owner = some p <;> simp [ownerOfLine_some hl, State.lineDenied, own, firstCheck]

/-- R68 checks 3 to 5. -/
theorem taskTone_refuses (s : State) (p : Port) (args : List Byte) :
    BlockRefuses (fun t => t.taskTone p args) s
      [(!inRange 1 24 (byteAt args 0), .badArg, 0), (!inRange 0 1 (byteAt args 1), .badArg, 0),
        (ownerOfLine s (byteAt args 0) != some p, .notOwner, portDetail (ownerOfLine s (byteAt args 0)))] := by
  simp only [BlockRefuses, forall_firstCheck_cons, line_inRange, setting_inRange, State.taskTone]
  cases hl : lineArg (byteAt args 0) with
  | none => simp
  | some l =>
    cases hs : settingArg (byteAt args 1) with
    | none => simp
    | some on =>
      by_cases own : (s.line l).owner = some p <;> simp [ownerOfLine_some hl, State.lineDenied, own, firstCheck]

/-- R70 checks 2 and 3: a FREE line may be acknowledged by any port. -/
theorem taskAckAttn_refuses (s : State) (p : Port) (args : List Byte) :
    BlockRefuses (fun t => t.taskAckAttn p args) s
      [(!inRange 1 24 (byteAt args 0), .badArg, 0),
        ((ownerOfLine s (byteAt args 0)).any (fun q => q != p), .notOwner, portDetail (ownerOfLine s (byteAt args 0)))] := by
  simp only [BlockRefuses, forall_firstCheck_cons, line_inRange, State.taskAckAttn]
  cases hl : lineArg (byteAt args 0) with
  | none => simp
  | some l =>
    cases owner : (s.line l).owner with
    | none => simp [ownerOfLine_some hl, owner, firstCheck]
    | some q => by_cases own : q = p <;> simp [ownerOfLine_some hl, owner, own, firstCheck, portDetail]

/-- Settles O50: each table is the intake's checks in front of the block's own. -/
theorem matrixAndLineTaskRefusals : Obligations.MatrixAndLineTaskRefusals := by
  intro p args s ready a b
  refine ⟨?setCell, ?park, ?place, ?trim, ?tone, ?ackAttn⟩
  case setCell => exact refusedByFirst_of_changing ready rfl (taskSetCell_refuses (s.taken p) p args)
  case park => exact refusedByFirst_of_changing ready rfl (taskPark_refuses (s.taken p) p args)
  case place => exact refusedByFirst_of_changing ready rfl (taskPlace_refuses (s.taken p) p args)
  case trim => exact refusedByFirst_of_changing ready rfl (taskTrim_refuses (s.taken p) p args)
  case tone => exact refusedByFirst_of_changing ready rfl (taskTone_refuses (s.taken p) p args)
  case ackAttn => exact refusedByFirst_of_served ready rfl (taskAckAttn_refuses (s.taken p) p args)

/-! ## The tables of CLAIM, RELEASE, HAND, ASSIGN, TALK and UNTALK at their blocks -/

/-- R86 checks 3 and 4. -/
theorem taskClaim_refuses (s : State) (p : Port) (args : List Byte) :
    BlockRefuses (fun t => t.taskClaim p args) s
      [(!inRange 1 24 (byteAt args 0), .badArg, 0),
        ((ownerOfLine s (byteAt args 0)).any (fun q => q != p) && wordAt args 1 == 0, .busy,
          portDetail (ownerOfLine s (byteAt args 0)))] := by
  simp only [BlockRefuses, forall_firstCheck_cons, line_inRange, State.taskClaim]
  cases hl : lineArg (byteAt args 0) with
  | none => simp
  | some l =>
    cases owner : (s.line l).owner with
    | none => simp [ownerOfLine_some hl, owner, firstCheck]
    | some q => by_cases own : q = p <;> simp +contextual [ownerOfLine_some hl, owner, own, firstCheck, portDetail]

/-- R88 checks 3 and 4. -/
theorem taskRelease_refuses (s : State) (p : Port) (args : List Byte) :
    BlockRefuses (fun t => t.taskRelease p args) s
      [(!inRange 1 24 (byteAt args 0), .badArg, 0),
        (ownerOfLine s (byteAt args 0) != some p, .notOwner, portDetail (ownerOfLine s (byteAt args 0)))] := by
  simp only [BlockRefuses, forall_firstCheck_cons, line_inRange, State.taskRelease]
  cases hl : lineArg (byteAt args 0) with
  | none => simp
  | some l =>
    by_cases own : (s.line l).owner = some p <;> simp [ownerOfLine_some hl, State.lineDenied, own, firstCheck]

/-- The port that a field names. -/
theorem portArg_val {n : Nat} {q : Port} (h : portArg n = some q) : n = q.val := by
  unfold portArg at h
  split at h
  · exact congrArg Fin.val (Option.some.inj h)
  · cases h

/-- R90 checks 3 to 6. -/
theorem taskHand_refuses (s : State) (p : Port) (args : List Byte) :
    BlockRefuses (fun t => t.taskHand p args) s
      [(!inRange 1 24 (byteAt args 0), .badArg, 0), (!inRange 0 3 (byteAt args 1), .badArg, 0),
        (ownerOfLine s (byteAt args 0) != some p, .notOwner, portDetail (ownerOfLine s (byteAt args 0))),
        (byteAt args 1 == p.val, .badArg, 0)] := by
  simp only [BlockRefuses, forall_firstCheck_cons, line_inRange, port_inRange, State.taskHand]
  cases hl : lineArg (byteAt args 0) with
  | none => simp
  | some l =>
    cases hq : portArg (byteAt args 1) with
    | none => simp
    | some q =>
      have self : byteAt args 1 = p.val ↔ q = p := by rw [portArg_val hq, Fin.ext_iff]
      by_cases own : (s.line l).owner = some p
      · simp +contextual [ownerOfLine_some hl, State.lineDenied, own, firstCheck, self]
      · simp [ownerOfLine_some hl, State.lineDenied, own]

/-- R95 checks 3 to 5. -/
theorem taskAssign_refuses (s : State) (p : Port) (args : List Byte) :
    BlockRefuses (fun t => t.taskAssign p args) s
      [(p != 0, .notSenior, 255), (!inRange 1 8 (byteAt args 0), .badArg, 0), (!inRange 0 3 (byteAt args 1), .badArg, 0)] := by
  simp only [BlockRefuses, forall_firstCheck_cons, bus_inRange, port_inRange, bne_iff_ne, bne_eq_false_iff_eq]
  refine ⟨fun junior => if_pos junior, fun senior => ?_⟩
  simp only [State.taskAssign, senior]
  cases hb : busArg (byteAt args 0) with
  | none => simp
  | some b => cases hq : portArg (byteAt args 1) <;> simp [firstCheck]

/-- R108 checks 2 to 6. -/
theorem taskTalk_refuses (s : State) (p : Port) (args : List Byte) :
    BlockRefuses (fun t => t.taskTalk p args) s
      [(!inRange 1 24 (byteAt args 0), .badArg, 0), (!inRange 1 16 (byteAt args 1), .badArg, 0),
        (ownerOfLine s (byteAt args 0) == none, .notOwner, 255),
        (ownerOfLine s (byteAt args 0) != some p && p != 0, .notOwner, portDetail (ownerOfLine s (byteAt args 0))),
        ((talkerOfLine s (byteAt args 0)).any (fun q => decide (q < p)), .busy,
          portDetail (talkerOfLine s (byteAt args 0)))] := by
  simp only [BlockRefuses, forall_firstCheck_cons, line_inRange, source_inRange, State.taskTalk]
  cases hl : lineArg (byteAt args 0) with
  | none => simp
  | some l =>
    cases hx : sourceArg (byteAt args 1) with
    | none => simp
    | some x =>
      simp only [ownerOfLine_some hl, talkerOfLine_some hl, State.talkDenied]
      cases owner : (s.line l).owner with
      | none => simp
      | some o =>
        by_cases stops : o ≠ p ∧ p ≠ 0
        · simp [stops, portDetail]
        · have passes : (some o != some p && p != 0) = false := by simpa using stops
          cases talk : (s.line l).talk with
          | none => simp [passes, stops, firstCheck]
          | some t => by_cases lower : t.talker < p <;> simp [passes, stops, lower, firstCheck, portDetail]

/-- R111 checks 2 and 3. -/
theorem taskUntalk_refuses (s : State) (p : Port) (args : List Byte) :
    BlockRefuses (fun t => t.taskUntalk p args) s
      [(!inRange 1 24 (byteAt args 0), .badArg, 0),
        (talkerOfLine s (byteAt args 0) != some p, .notHolder, portDetail (talkerOfLine s (byteAt args 0)))] := by
  simp only [BlockRefuses, forall_firstCheck_cons, line_inRange, State.taskUntalk]
  cases hl : lineArg (byteAt args 0) with
  | none => simp
  | some l =>
    simp only [talkerOfLine_some hl, State.untalkDenied]
    cases talk : (s.line l).talk with
    | none => simp [portDetail]
    | some t => by_cases holds : t.talker = p <;> simp [holds, firstCheck, portDetail]

/-- Settles O51: each table is the intake's checks in front of the block's own. -/
theorem ownershipAndTalkTaskRefusals : Obligations.OwnershipAndTalkTaskRefusals := by
  intro p args s ready a b
  refine ⟨?claim, ?release, ?hand, ?assign, ?talk, ?untalk⟩
  case claim => exact refusedByFirst_of_changing ready rfl (taskClaim_refuses (s.taken p) p args)
  case release => exact refusedByFirst_of_changing ready rfl (taskRelease_refuses (s.taken p) p args)
  case hand => exact refusedByFirst_of_changing ready rfl (taskHand_refuses (s.taken p) p args)
  case assign => exact refusedByFirst_of_changing ready rfl (taskAssign_refuses (s.taken p) p args)
  case talk => exact refusedByFirst_of_served ready rfl (taskTalk_refuses (s.taken p) p args)
  case untalk => exact refusedByFirst_of_served ready rfl (taskUntalk_refuses (s.taken p) p args)


/-! ## The tables of LOAD-BEGIN, LOAD-END, RUN, SNAP, READ-SNAP, REF-ENABLE and REF-SELECT at their blocks -/

/-- R122 checks 2 to 4. -/
theorem taskLoadBegin_refuses (s : State) (p : Port) (args : List Byte) :
    BlockRefuses (fun t => t.taskLoadBegin p args) s
      [(wordAt args 1 == 0, .badArg, 0), (decide (256 < byteAt args 0 + wordAt args 1), .badArg, 0),
        ((s.player p).state != .idle, .busy, (s.player p).addr)] := by
  simp only [BlockRefuses, forall_firstCheck_cons, beq_iff_eq, beq_eq_false_iff_ne, decide_eq_true_eq, decide_eq_false_iff_not,
    bne_iff_ne]
  refine ⟨fun none_ => if_pos none_, fun some_ => ⟨fun past => ?_, fun inside => ⟨fun busy => ?_, fun _ => forall_firstCheck_nil⟩⟩⟩
  · exact (if_neg some_).trans (if_pos past)
  · exact (if_neg some_).trans ((if_neg inside).trans (if_pos busy))

/-- R125's check of the loader. -/
theorem taskLoadEnd_refuses (s : State) (p : Port) :
    BlockRefuses (fun t => t.taskLoadEnd p) s [(!(s.loader p).loading, .notLoading, 0)] := by
  simp only [BlockRefuses, forall_firstCheck_cons]
  exact ⟨fun idle => if_pos idle, fun _ => forall_firstCheck_nil⟩

/-- R142 checks 2 to 4. -/
theorem taskRun_refuses (s : State) (p : Port) (args : List Byte) :
    BlockRefuses (fun t => t.taskRun p args) s
      [(!inRange 0 255 (wordAt args 0), .badArg, 0), ((s.player p).state != .idle, .busy, (s.player p).addr),
        ((s.loader p).loading, .busy, (s.loader p).received)] := by
  have range : (!inRange 0 255 (wordAt args 0)) = true ↔ 255 < wordAt args 0 := by simp [inRange]
  simp only [BlockRefuses, forall_firstCheck_cons, range, Bool.eq_false_iff, ne_eq, bne_iff_ne]
  refine ⟨fun past => if_pos past, fun inside => ⟨fun busy => ?_, fun idle => ⟨fun loading => ?_, fun _ => forall_firstCheck_nil⟩⟩⟩
  · exact (if_neg inside).trans (if_pos busy)
  · exact (if_neg inside).trans ((if_neg idle).trans (if_pos loading))

/-- R161 check 2. -/
theorem taskSnap_refuses (s : State) (p : Port) :
    BlockRefuses (fun t => t.taskSnap p) s
      [((s.meter.buffer.map fun k => k.holder).any (fun q => q != p), .locked,
        portDetail (s.meter.buffer.map fun k => k.holder))] := by
  simp only [BlockRefuses, forall_firstCheck_cons, State.taskSnap, State.snapHolder]
  cases s.meter.buffer with
  | none => simp [firstCheck]
  | some b => by_cases own : b.holder = p <;> simp [own, firstCheck, portDetail]

/-- R164 checks 2 to 5. -/
theorem taskReadSnap_refuses (s : State) (p : Port) (args : List Byte) :
    BlockRefuses (fun t => t.taskReadSnap p args) s
      [((s.meter.buffer.map fun k => k.holder) == none, .noData, 255),
        ((s.meter.buffer.map fun k => k.holder) != some p, .notHolder, portDetail (s.meter.buffer.map fun k => k.holder)),
        (!inRange 0 1 (byteAt args 2), .badArg, 0), (decide (32 < byteAt args 0 + byteAt args 1), .badArg, 0)] := by
  simp only [BlockRefuses, forall_firstCheck_cons, setting_inRange, State.taskReadSnap]
  cases s.meter.buffer with
  | none => simp
  | some b =>
    by_cases own : b.holder = p
    · cases hu : settingArg (byteAt args 2) with
      | none => simp [own]
      | some unlock => simp +contextual [own, firstCheck]
    · simp [own, portDetail]

/-- The reference that a field names. -/
theorem refArg_val {n : Nat} {r : RefId} (h : refArg n = some r) : n = r.val := by
  unfold refArg at h
  split at h
  · exact congrArg Fin.val (Option.some.inj h)
  · cases h

/-- A setting of 0 is off. -/
theorem settingArg_off {n : Nat} {on : Bool} (h : settingArg n = some on) : (n == 0) = !on := by
  unfold settingArg at h
  split at h
  · rename_i zero
    rw [zero, ← Option.some.inj h]
    rfl
  · rename_i other
    split at h
    · rename_i one_
      rw [one_, ← Option.some.inj h]
      rfl
    · cases h

/-- R172 checks 2 to 6. -/
theorem taskRefEnable_refuses (s : State) (p : Port) (args : List Byte) :
    BlockRefuses (fun t => t.taskRefEnable p args) s
      [(p != 0, .notSenior, 255), (!inRange 0 3 (byteAt args 0), .badArg, 0), (!inRange 0 1 (byteAt args 1), .badArg, 0),
        (byteAt args 0 == 0 && byteAt args 1 == 0, .badArg, 0),
        (byteAt args 1 == 0 && byteAt args 0 == s.clock.selected.val, .busy, s.clock.selected.val)] := by
  simp only [BlockRefuses, forall_firstCheck_cons, ref_inRange, setting_inRange, bne_iff_ne, bne_eq_false_iff_eq]
  refine ⟨fun junior => if_pos junior, fun senior => ?_⟩
  simp only [State.taskRefEnable, senior]
  cases hr : refArg (byteAt args 0) with
  | none => simp
  | some r =>
    cases hs : settingArg (byteAt args 1) with
    | none => simp
    | some on =>
      have int : (byteAt args 0 == 0) = decide (r = RefId.int) := by
        rw [refArg_val hr, beq_eq_decide]
        exact decide_eq_decide.2 (Fin.ext_iff (a := r) (b := RefId.int)).symm
      have selected : (byteAt args 0 == s.clock.selected.val) = decide (s.clock.selected = r) := by
        rw [refArg_val hr, beq_eq_decide]
        exact decide_eq_decide.2 (by rw [Fin.ext_iff, eq_comm])
      simp only [settingArg_off hs, int, selected]
      cases on with
      | true => simp [firstCheck]
      | false =>
        by_cases isInt : r = RefId.int
        · simp [isInt]
        · by_cases current : s.clock.selected = r
          · simp [isInt, current]
          · simp [isInt, current, firstCheck]

/-- R174 checks 2 to 4. -/
theorem taskRefSelect_refuses (s : State) (p : Port) (args : List Byte) :
    BlockRefuses (fun t => t.taskRefSelect p args) s
      [(p != 0, .notSenior, 255), (!inRange 0 3 (byteAt args 0), .badArg, 0),
        ((refArg (byteAt args 0)).any (fun r => (s.ref r).state != .locked), .noLock,
          match (refArg (byteAt args 0)).map (fun r => (s.ref r).state) with
          | some .acquiring => 1
          | _ => 0)] := by
  simp only [BlockRefuses, forall_firstCheck_cons, ref_inRange, bne_iff_ne, bne_eq_false_iff_eq]
  refine ⟨fun junior => if_pos junior, fun senior => ?_⟩
  simp only [State.taskRefSelect, senior]
  cases hr : refArg (byteAt args 0) with
  | none => simp
  | some r => cases state : (s.ref r).state <;> simp [state, firstCheck, RefState.code]

/-- Settles O52: each table is the intake's checks in front of the block's own. -/
theorem loadMeterAndClockTaskRefusals : Obligations.LoadMeterAndClockTaskRefusals := by
  intro p args s ready a b holder
  refine ⟨?loadBegin, ?loadEnd, ?run, ?snap, ?readSnap, ?refEnable, ?refSelect⟩
  case loadBegin => exact refusedByFirst_of_served ready rfl (taskLoadBegin_refuses (s.taken p) p args)
  case loadEnd => exact refusedByFirst_of_served ready rfl (taskLoadEnd_refuses (s.taken p) p)
  case run => exact refusedByFirst_of_served ready rfl (taskRun_refuses (s.taken p) p args)
  case snap => exact refusedByFirst_of_served ready rfl (taskSnap_refuses (s.taken p) p)
  case readSnap => exact refusedByFirst_of_served ready rfl (taskReadSnap_refuses (s.taken p) p args)
  case refEnable => exact refusedByFirst_of_served ready rfl (taskRefEnable_refuses (s.taken p) p args)
  case refSelect => exact refusedByFirst_of_served ready rfl (taskRefSelect_refuses (s.taken p) p args)

end Sys2Proof.Proofs.TaskRefusals


namespace Sys2Proof.Proofs.CueSteps

open Sys2Proof Sys2Proof.Machine Sys2Proof.Safety Sys2Proof.Proofs.Courses Sys2Proof.Proofs.Effects Sys2Proof.Proofs.Tasks
  Sys2Proof.Proofs.OwnershipTasks Sys2Proof.Proofs.TalkTasks

/-! ## The examination of a step (R131) -/

/-- The command of a record's kind is taken where the player stands at the record. -/
theorem takeStep_here {s : State} {p : Port} {record : List Byte} {kind : Nat} (h : Examines s p record)
    (code : byteAt record 0 = kind) (carry : StepBody → State) :
    s.takeStep p kind carry = .next (s.examine p carry).driveNotices := by
  obtain ⟨stepping, valid, bytes⟩ := h
  refine congrArg Host.Outcome.next (if_pos ?_)
  simp [State.standsAt, State.isStepping, stepping, valid, bytes, code]

/-- A malformed record faults BadStep (R131 check 2). -/
theorem examine_malformed {s : State} {p : Port} {record : List Byte} (h : Examines s p record)
    (malformed : decodeStep record = none) (carry : StepBody → State) :
    s.examine p carry = s.endPlayer p (.fault .badStep) (s.player p).addr := by
  obtain ⟨-, -, bytes⟩ := h
  simp only [State.examine, bytes, malformed]

/-- A step that may not stand last runs off at address 255 (R131 check 3). -/
theorem examine_ranOff {s : State} {p : Port} {record : List Byte} {b : StepBody} (h : Examines s p record)
    (body : decodeStep record = some b) (last : (s.player p).addr = 255) (not_last : b.mayStandLast = false)
    (carry : StepBody → State) : s.examine p carry = s.endPlayer p (.fault .ranOff) 255 := by
  obtain ⟨-, -, bytes⟩ := h
  rw [last] at bytes
  simp [State.examine, bytes, body, last, not_last]

/-- A step that FREEZE holds leaves the player PAUSED under FREEZE (R131 check 4). -/
theorem examine_paused {s : State} {p : Port} {record : List Byte} {b : StepBody} (h : Examines s p record)
    (body : decodeStep record = some b) (inside : (s.player p).addr ≠ 255) (held : b.heldByFreeze = true)
    (freeze : s.ports.freeze = true) (carry : StepBody → State) :
    s.examine p carry = s.setPlayer p { s.player p with state := .paused } := by
  obtain ⟨-, -, bytes⟩ := h
  simp [State.examine, bytes, body, inside, held, freeze]

/-- A step that passes the checks is carried out. -/
theorem examine_carries {s : State} {p : Port} {record : List Byte} {b : StepBody} (h : Examines s p record)
    (body : decodeStep record = some b) (inside : (s.player p).addr ≠ 255 ∨ b.mayStandLast = true)
    (goes : b.heldByFreeze = false ∨ s.ports.freeze = false) (carry : StepBody → State) : s.examine p carry = carry b := by
  obtain ⟨-, -, bytes⟩ := h
  have passes : ¬ ((s.player p).addr = 255 ∧ (!b.mayStandLast) = true) := by
    obtain h | h := inside <;> simp [h]
  have free : (b.heldByFreeze && s.ports.freeze) = false := by
    obtain h | h := goes <;> simp [h]
  simp only [State.examine, bytes, body, passes, free, if_false, Bool.false_eq_true]

/-! ## The ends of a step -/

/-- Notice lines driven where nothing else of the Notice Unit moved. -/
theorem driven_of_same {s u : State} (same : u.notice = s.notice) : NoticeDriven s u.driveNotices := by
  obtain ⟨driven, follow⟩ := State.driveNotices_spec u
  exact ⟨by rw [driven, same], follow⟩

/-- A player ended with a fault, and nothing else of the part changed (R129). -/
theorem endPlayer_faulted (s : State) (p : Port) (k : PlayerFault) (a : Nat) : Faulted s (s.endPlayer p (.fault k) a) p k a := by
  obtain ⟨players, discarded⟩ := State.endPlayer_spec s p (.fault k) a
  exact ⟨(players p).trans (if_pos rfl), fun q hq => (players q).trans (if_neg hq), rfl, discarded, rfl, rfl, rfl, rfl, rfl, rfl⟩

/-- The same with the notice lines driven. -/
theorem endPlayer_driven (s : State) (p : Port) (k : PlayerFault) (a : Nat) :
    NoticeDriven s (s.endPlayer p (.fault k) a).driveNotices ∧
    Faulted s (s.endPlayer p (.fault k) a).driveNotices p k a :=
  ⟨driven_of_same rfl, endPlayer_faulted s p k a⟩

/-- A step's effect `u`, made without touching players, and the player's going on (R131). -/
theorem stepDone_wentOn {s u : State} {p : Port} (stepping : (s.player p).state = .stepping) (players : u.players = s.players) :
    WentOn s (u.stepDone p).driveNotices p := by
  have same : u.player p = s.player p := player_congr players p
  have after := State.setPlayer_spec u p { u.player p with addr := (u.player p).addr + 1 }
  refine ⟨((after p).trans (if_pos rfl)).trans ?_, fun q hq => ((after q).trans (if_neg hq)).trans (player_congr players q)⟩
  rw [same, ← stepping]

/-! ## SET-CELL, SET-TRIM, PLACE and TONE steps -/

/-- The kind code of an action's record (R189). -/
def actionKind : Action → Nat
  | .cell _ _ _ => 0x01
  | .trim _ _ => 0x02
  | .place _ _ _ => 0x03
  | .tone _ _ => 0x06

/-- The command of an action's step (R132). -/
theorem actionStep_exec (p : Port) (a : Action) (s : State) :
    exec (actionStep p a) s = s.takeStep p (actionKind a) fun b => s.carryAction p b := by
  cases a <;> rfl

/-- The record of an action has its kind code. -/
theorem actionRecord_kind (a : Action) (rest : List Byte) : byteAt (actionRecord a rest) 0 = actionKind a := by
  cases a <;> rfl

/-- A value of two bytes reads back. -/
theorem wide_two {v : Nat} (h : v ≤ 65535) : wide (BitVec.ofNat 8 (v / 256)) (BitVec.ofNat 8 v) = v := by
  simp [wide]
  omega

/-- The record of an action reads back as that action (R189). -/
theorem decodeStep_actionRecord {a : Action} (range : actionCoefficient a ≤ 65535) (rest : List Byte) :
    decodeStep (actionRecord a rest) = some (.act a) := by
  cases a with
  | cell c b v => simp [actionRecord, decodeStep, two, wide_two (v := v) range]
  | trim l v => simp [actionRecord, decodeStep, two, wide_two (v := v) range]
  | place l bus hold => simp [actionRecord, decodeStep]
  | tone l on => simp [actionRecord, decodeStep]

/-- Settles O29: the ownership check of the mirrored task, then its effect and the player's going on. -/
theorem actionStepsMirrorTheirTasks : Obligations.ActionStepsMirrorTheirTasks := by
  intro p a rest s _ range stands inside freeze
  have run : exec (actionStep p a) s = .next (s.carryAction p (.act a)).driveNotices := by
    rw [actionStep_exec, takeStep_here stands (actionRecord_kind a rest),
      examine_carries stands (decodeStep_actionRecord range rest) (.inl inside) (.inr freeze)]
  by_cases owns : Owns s p a
  · have carried : s.carryAction p (.act a) = (s.performAction a).stepDone p := by
      simp only [State.carryAction, (State.actionDenied_eq_none s p a).2 owns]
    obtain ⟨cue, players, notice, meter, clock, ports, free, pending⟩ := State.performAction_frame s a
    have effect := State.performAction_spec s a
    rw [carried] at run
    generalize s.performAction a = u at *
    exact ⟨_, run, driven_of_same notice, ⟨cue, meter, clock, ports, free, pending⟩,
      fun _ => ⟨effect, stepDone_wentOn stands.1 players⟩, fun other => absurd owns other⟩
  · obtain ⟨d, denied⟩ := Option.ne_none_iff_exists'.1 fun passes => owns ((State.actionDenied_eq_none s p a).1 passes)
    have carried : s.carryAction p (.act a) = s.endPlayer p (.fault .notOwner) (s.player p).addr := by
      simp only [State.carryAction, denied]
    rw [carried] at run
    obtain ⟨driven, faulted⟩ := endPlayer_driven s p .notOwner (s.player p).addr
    exact ⟨_, run, driven, ⟨rfl, rfl, rfl, rfl, rfl, rfl⟩, fun h => absurd h owns, fun _ => faulted⟩

/-! ## TALK-ON and TALK-OFF steps -/

/-- The record of a TALK-ON step reads back (R189). -/
theorem decodeStep_talkOn (l : Line) (x : Source) (g1 g0 d1 d0 u : Byte) :
    decodeStep [0x04, num l, num x, g1, g0, d1, d0, u] = some (.talkOn l x (wide g1 g0) (min (wide d1 d0) 32768)) := by
  simp [decodeStep, clampDuck]

/-- The record of a TALK-OFF step reads back (R189). -/
theorem decodeStep_talkOff (l : Line) (rest : List Byte) : decodeStep (0x05 :: num l :: rest) = some (.talkOff l) := by
  simp [decodeStep]

/-- Settles O30: the checks of TALK and UNTALK, then their effect and the player's going on. -/
theorem talkStepsActAsTalkTasks : Obligations.TalkStepsActAsTalkTasks := by
  refine ⟨fun p l x g1 g0 d1 d0 v s stands inside => ?_, fun p l rest s _ stands inside => ?_⟩
  · have run : exec (.stepTalkOn p) s =
        .next (s.carryTalkOn p (.talkOn l x (wide g1 g0) (min (wide d1 d0) 32768))).driveNotices := by
      refine (takeStep_here stands rfl _).trans ?_
      rw [examine_carries stands (decodeStep_talkOn l x g1 g0 d1 d0 v) (.inl inside) (.inl rfl)]
    by_cases allowed : TalkOpen s p l
    · have carried : s.carryTalkOn p (.talkOn l x (wide g1 g0) (min (wide d1 d0) 32768)) =
          (s.talkOn l ⟨p, x, wide g1 g0, min (wide d1 d0) 32768⟩).stepDone p := by
        simp only [State.carryTalkOn, (talkDenied_eq_none s p l).2 allowed]
      obtain ⟨only, record, written, events, notice⟩ := talkOn_spec s l ⟨p, x, wide g1 g0, min (wide d1 d0) 32768⟩
      obtain ⟨cue, players, meter, clock, ports, free, pending⟩ :=
        State.talkOn_frame s l ⟨p, x, wide g1 g0, min (wide d1 d0) 32768⟩
      rw [carried] at run
      generalize s.talkOn l ⟨p, x, wide g1 g0, min (wide d1 d0) 32768⟩ = u at *
      obtain ⟨driven, follow⟩ := State.driveNotices_spec (u.stepDone p)
      refine ⟨_, run, ⟨cue, meter, clock, ports, free, pending⟩, follow, ?_⟩
      rw [if_pos allowed]
      refine ⟨stepDone_wentOn stands.1 players, only, record, written, EventsAdded.congr events (by rw [driven]; rfl), ?_⟩
      rw [driven, show (u.stepDone p).notice = u.notice from rfl, notice]
    · obtain ⟨d, denied⟩ := Option.ne_none_iff_exists'.1 fun passes => allowed ((talkDenied_eq_none s p l).1 passes)
      have carried : s.carryTalkOn p (.talkOn l x (wide g1 g0) (min (wide d1 d0) 32768)) =
          s.endPlayer p (.fault .notOwner) (s.player p).addr := by
        simp only [State.carryTalkOn, denied]
      rw [carried] at run
      obtain ⟨driven, faulted⟩ := endPlayer_driven s p .notOwner (s.player p).addr
      refine ⟨_, run, ⟨rfl, rfl, rfl, rfl, rfl, rfl⟩, driven.2, ?_⟩
      rw [if_neg allowed]
      exact ⟨faulted, driven⟩
  · have run : exec (.stepTalkOff p) s = .next (s.carryTalkOff p (.talkOff l)).driveNotices := by
      refine (takeStep_here stands rfl _).trans ?_
      rw [examine_carries stands (decodeStep_talkOff l rest) (.inl inside) (.inl rfl)]
    by_cases holds : (s.line l).talk.map TalkSlot.talker = some p
    · have carried : s.carryTalkOff p (.talkOff l) = (s.clearTalks fun k => k == l).stepDone p := by
        simp only [State.carryTalkOff, (untalkDenied_eq_none s p l).2 holds]
      obtain ⟨only, record, written⟩ := State.clearTalk_spec s l
      rw [carried] at run
      refine ⟨_, run, ⟨rfl, rfl, rfl, rfl, rfl, rfl⟩, driven_of_same rfl, ?_⟩
      rw [if_pos holds]
      exact ⟨stepDone_wentOn stands.1 rfl, only, record, written⟩
    · obtain ⟨d, denied⟩ := Option.ne_none_iff_exists'.1 fun passes => holds ((untalkDenied_eq_none s p l).1 passes)
      have carried : s.carryTalkOff p (.talkOff l) = s.endPlayer p (.fault .notOwner) (s.player p).addr := by
        simp only [State.carryTalkOff, denied]
      rw [carried] at run
      obtain ⟨driven, faulted⟩ := endPlayer_driven s p .notOwner (s.player p).addr
      refine ⟨_, run, ⟨rfl, rfl, rfl, rfl, rfl, rfl⟩, driven, ?_⟩
      rw [if_neg holds]
      exact faulted

/-! ## WAIT and AWAIT steps and their timers -/

/-- The byte of an AWAIT record's condition (R189). -/
def conditionByte : Condition → Byte
  | .attentionLatched => 0
  | .connected => 1
  | .disconnected => 2

/-- The byte of an AWAIT record's mode (R189). -/
def modeByte : AwaitMode → Byte
  | .stop => 0
  | .goOn => 1

/-- The record of a WAIT step reads back (R189). -/
theorem decodeStep_wait (hi lo : Byte) (rest : List Byte) :
    decodeStep (0x07 :: hi :: lo :: rest) = some (.wait (48 * max 1 (wide hi lo))) := by
  simp [decodeStep, msFrames, Nat.mul_comm]

/-- The timeout of an AWAIT record, 0 meaning none (R135). -/
def awaitFrames (hi lo : Byte) : TimeLeft := if wide hi lo = 0 then .unlimited else .frames (48 * wide hi lo)

/-- The record of an AWAIT step reads back (R189). -/
theorem decodeStep_await (l : Line) (cond : Condition) (hi lo : Byte) (mode : AwaitMode) (u v : Byte) :
    decodeStep [0x08, num l, conditionByte cond, hi, lo, modeByte mode, u, v] =
      some (.await l cond (awaitFrames hi lo) mode) := by
  cases cond <;> cases mode <;>
    simp [decodeStep, conditionByte, modeByte, conditionArg, modeArg, awaitTime, awaitFrames, msFrames, Nat.mul_comm]

/-- The player after its AWAIT step: past it where the condition holds, else AWAITING (R135). -/
def awaited (s : State) (p : Port) (l : Line) (cond : Condition) (time : TimeLeft) (mode : AwaitMode) : Player :=
  if cond.holds (s.line l) then pastWait (s.player p) else { s.player p with state := .awaiting time l cond mode }

/-- AWAIT changes its player alone (R135). -/
theorem carryAwait_eq (s : State) (p : Port) (l : Line) (cond : Condition) (time : TimeLeft) (mode : AwaitMode) :
    s.carryAwait p (.await l cond time mode) = s.setPlayer p (awaited s p l cond time mode) := by
  simp only [State.carryAwait, awaited, Player.goOn_spec]
  split <;> rfl

/-- Settles O31: the player is held, or goes on. -/
theorem waitAndAwaitStepsHoldThePlayer : Obligations.WaitAndAwaitStepsHoldThePlayer := by
  refine ⟨fun p hi lo rest s _ stands => ?_, fun p l cond hi lo mode u v s stands => ?_⟩
  · have run : exec (.stepWait p) s = .next (s.carryWait p (.wait (48 * max 1 (wide hi lo)))).driveNotices := by
      refine (takeStep_here stands rfl _).trans ?_
      rw [examine_carries stands (decodeStep_wait hi lo rest) (.inr rfl) (.inl rfl)]
    have players := State.setPlayer_spec s p { s.player p with state := .waiting (48 * max 1 (wide hi lo)) }
    exact ⟨_, run, ⟨rfl, rfl, rfl, rfl, rfl, rfl⟩, driven_of_same rfl, rfl, rfl, fun q hq => (players q).trans (if_neg hq),
      (players p).trans (if_pos rfl)⟩
  · have record : Examines s p [0x08, num l, conditionByte cond, hi, lo, modeByte mode, u, v] := by
      cases cond <;> cases mode <;> exact stands
    have run : exec (.stepAwait p) s = .next (s.setPlayer p (awaited s p l cond (awaitFrames hi lo) mode)).driveNotices := by
      refine (takeStep_here record rfl _).trans ?_
      rw [examine_carries record (decodeStep_await l cond hi lo mode u v) (.inr rfl) (.inl rfl), carryAwait_eq]
    have players := State.setPlayer_spec s p (awaited s p l cond (awaitFrames hi lo) mode)
    refine ⟨_, run, ⟨rfl, rfl, rfl, rfl, rfl, rfl⟩, driven_of_same rfl, rfl, rfl, fun q hq => (players q).trans (if_neg hq),
      ((players p).trans (if_pos rfl)).trans ?_⟩
    cases cond <;> rfl

/-- The player whose AWAIT has timed out (R136). -/
def timedOut (x : Player) : AwaitMode → Player
  | .stop => endedPlayer .timeout x.addr
  | .goOn => pastWait x

/-- Settles O32, by the player's timer. -/
theorem playerTimersExpire : Obligations.PlayerTimersExpire := by
  refine ⟨fun p s due => ?_, fun p s early => ?_, fun p l cond mode s due => ?_, fun p s early => ?_⟩
  · have reached : s.waitTimerDue p = true := by simp [State.waitTimerDue, due]
    have players := State.setPlayer_spec s p (s.player p).goOn
    exact ⟨_, congrArg Host.Outcome.next (if_pos reached), ((players p).trans (if_pos rfl)).trans (Player.goOn_spec _),
      fun q hq => (players q).trans (if_neg hq), ⟨rfl, rfl, rfl, rfl, rfl, rfl⟩, rfl, rfl, rfl⟩
  · exact congrArg Host.Outcome.next (if_neg (by simpa [State.waitTimerDue] using early))
  · have run : exec (.awaitTimeout p) s = .next (s.setPlayer p (timedOut (s.player p) mode)) := by
      refine congrArg Host.Outcome.next ?_
      cases mode <;> simp [State.expireAwaitTimer, due, Player.goOn_spec, Player.ended, endedPlayer, timedOut]
    have players := State.setPlayer_spec s p (timedOut (s.player p) mode)
    refine ⟨_, run, fun q hq => (players q).trans (if_neg hq), ⟨rfl, rfl, rfl, rfl, rfl, rfl⟩, rfl, rfl, rfl,
      ((players p).trans (if_pos rfl)).trans ?_⟩
    cases mode <;> rfl
  · refine congrArg Host.Outcome.next ?_
    unfold State.expireAwaitTimer
    split
    · rename_i state
      exact absurd state (early _ _ _)
    · rename_i state
      exact absurd state (early _ _ _)
    · rfl

end Sys2Proof.Proofs.CueSteps


namespace Sys2Proof.Proofs.CueGroups

open Sys2Proof Sys2Proof.Machine Sys2Proof.Safety Sys2Proof.Proofs.Courses Sys2Proof.Proofs.Effects Sys2Proof.Proofs.Tasks
  Sys2Proof.Proofs.TaskRefusals Sys2Proof.Proofs.CueSteps

/-! ## The steps of a group (R137) -/

/-- A group fails at its first step where that step fails a check. -/
theorem groupActions_failed {s : State} {p : Port} {a : Nat} {k : PlayerFault} (fails : groupCheck s p a = some k) (n : Nat) :
    s.groupActions p (n + 1) a = .error (k, a) := by
  unfold groupCheck at fails
  rw [State.groupActions]
  cases valid : s.recordValid p a with
  | false => simp_all
  | true =>
    cases body : decodeStep (s.record p a) with
    | none => simp_all
    | some b =>
      cases b with
      | act x =>
        by_cases last : a = 255
        · simp_all
        · cases denied : s.actionDenied p x <;> simp_all
      | _ => simp_all

/-- A step that passes the checks is an action, and stands first in its group. -/
theorem groupActions_passed {s : State} {p : Port} {a : Nat} (passes : groupCheck s p a = none) :
    ∃ x, decodeStep (s.record p a) = some (.act x) ∧
      ∀ n, s.groupActions p (n + 1) a = (s.groupActions p n (a + 1)).map (⟨a, x⟩ :: ·) := by
  unfold groupCheck at passes
  cases valid : s.recordValid p a with
  | false => simp [valid] at passes
  | true =>
    cases body : decodeStep (s.record p a) with
    | none => simp [valid, body] at passes
    | some b =>
      cases b with
      | act x =>
        by_cases last : a = 255
        · subst last
          simp [valid, body] at passes
        · cases denied : s.actionDenied p x with
          | some d => simp [valid, body, last, denied] at passes
          | none =>
            refine ⟨x, rfl, fun n => ?_⟩
            rw [State.groupActions]
            simp only [valid, body, last, denied, Bool.not_true, Bool.false_eq_true, if_false]
            cases s.groupActions p n (a + 1) <;> rfl
      | _ => simp [valid, body] at passes

/-- Where every step passes, the group holds their actions in step order (R138). -/
theorem groupActions_all {s : State} {p : Port} : ∀ {n a : Nat}, (∀ i < n, groupCheck s p (a + i) = none) →
    ∃ g, s.groupActions p n a = .ok g ∧ g.length = n ∧
      ∀ i, (h : i < g.length) → g[i].addr = a + i ∧ decodeStep (s.record p (a + i)) = some (.act g[i].action) := by
  intro n
  induction n with
  | zero => exact fun {a} _ => ⟨[], rfl, rfl, fun i h => absurd h (Nat.not_lt_zero i)⟩
  | succ n ih =>
    intro a passes
    obtain ⟨x, body, unfolds⟩ := groupActions_passed (passes 0 (Nat.succ_pos n))
    obtain ⟨g, tail, length, each⟩ := ih (a := a + 1) fun i hi => by
      rw [show a + 1 + i = a + (i + 1) by omega]
      exact passes (i + 1) (by omega)
    refine ⟨⟨a, x⟩ :: g, ?_, by simp [length], fun i hi => ?_⟩
    · rw [show a = a + 0 from rfl, unfolds, show a + 0 + 1 = a + 1 from rfl, tail]
      rfl
    · cases i with
      | zero => exact ⟨rfl, body⟩
      | succ i =>
        obtain ⟨addr, action⟩ := each i (Nat.lt_of_succ_lt_succ hi)
        rw [show a + (i + 1) = a + 1 + i by omega]
        exact ⟨addr, action⟩

/-- A group fails at its first step that fails a check (R137). -/
theorem groupActions_first {s : State} {p : Port} {k : PlayerFault} : ∀ {n a j : Nat}, j < n →
    (∀ i < j, groupCheck s p (a + i) = none) → groupCheck s p (a + j) = some k →
    s.groupActions p n a = .error (k, a + j) := by
  intro n
  induction n with
  | zero => exact fun h => absurd h (Nat.not_lt_zero _)
  | succ n ih =>
    intro a j inside before fails
    cases j with
    | zero => exact groupActions_failed fails n
    | succ j =>
      obtain ⟨x, -, unfolds⟩ := groupActions_passed (before 0 (Nat.succ_pos j))
      have tail : s.groupActions p n (a + 1) = .error (k, a + 1 + j) := by
        refine ih (Nat.lt_of_succ_lt_succ inside) (fun i hi => ?_) ?_
        · rw [show a + 1 + i = a + (i + 1) by omega]
          exact before (i + 1) (by omega)
        · rw [show a + 1 + j = a + (j + 1) by omega]
          exact fails
      have first : s.groupActions p (n + 1) a = (s.groupActions p n (a + 1)).map (⟨a, x⟩ :: ·) := unfolds n
      rw [first, tail, show a + (j + 1) = a + 1 + j by omega]
      rfl

/-! ## The GROUP step (R137, R138) -/

/-- The record of a GROUP step reads back (R189). -/
theorem decodeStep_group {n : Byte} (least : 1 ≤ n.toNat) (most : n.toNat ≤ 16) (rest : List Byte) :
    decodeStep (0x09 :: n :: rest) = some (.group n.toNat) := by
  simp [decodeStep, least, most]

/-- The state after a group whose checks answered `g`. -/
def grouped (s : State) (p : Port) : Except (PlayerFault × Nat) (List Staged) → State
  | .error e => s.endPlayer p (.fault e.1) e.2
  | .ok g => (s.setPlayer p { s.player p with state := .pending }).withMix
      { s.mix with staging := tset s.mix.staging p (some g) }

/-- GROUP makes its checks, then stages or ends the player (R137). -/
theorem carryGroup_eq (s : State) (p : Port) (n : Nat) :
    s.carryGroup p (.group n) = grouped s p (s.groupActions p n ((s.player p).addr + 1)) := by
  simp only [State.carryGroup]
  cases s.groupActions p n ((s.player p).addr + 1) <;> rfl

/-- A group's outcome changes its player and its staging alone. -/
theorem grouped_frame (s : State) (p : Port) (r : Except (PlayerFault × Nat) (List Staged)) :
    StepAside s (grouped s p r) ∧ (grouped s p r).notice = s.notice ∧ (grouped s p r).lineTable = s.lineTable := by
  cases r <;> exact ⟨⟨rfl, rfl, rfl, rfl, rfl, rfl⟩, rfl, rfl⟩

/-- The group is staged and its player PENDING (R138). -/
theorem grouped_ok (s : State) (p : Port) (g : List Staged) :
    (grouped s p (.ok g)).mix = { s.mix with staging := (grouped s p (.ok g)).mix.staging } ∧
    (∀ q, tget (grouped s p (.ok g)).mix.staging q = if q = p then some g else tget s.mix.staging q) ∧
    ∀ q, (grouped s p (.ok g)).player q = if q = p then { s.player p with state := .pending } else s.player q :=
  ⟨rfl, fun q => tget_tset s.mix.staging p q (some g), fun q => State.setPlayer_spec s p _ q⟩

/-- Settles O33: by the first step that fails a check, if any. -/
theorem groupStepStagesOrFaults : Obligations.GroupStepStagesOrFaults := by
  intro p n rest s _ least most stands inside freeze
  have run : exec (.stepGroup p) s =
      .next (grouped s p (s.groupActions p n.toNat ((s.player p).addr + 1))).driveNotices := by
    refine (takeStep_here stands rfl _).trans ?_
    rw [examine_carries stands (decodeStep_group least most rest) (.inl inside) (.inr freeze), carryGroup_eq]
  obtain ⟨aside, notice, lines⟩ := grouped_frame s p (s.groupActions p n.toNat ((s.player p).addr + 1))
  refine ⟨_, run, aside, driven_of_same notice, lines, fun passes => ?_, fun j inside before k fails => ?_⟩
  · obtain ⟨g, staged, length, each⟩ := groupActions_all passes
    obtain ⟨mix, staging, players⟩ := grouped_ok s p g
    rw [staged]
    exact ⟨mix, fun q hq => (staging q).trans (if_neg hq), fun q hq => (players q).trans (if_neg hq),
      (players p).trans (if_pos rfl), g, (staging p).trans (if_pos rfl), length, each⟩
  · rw [groupActions_first inside before fails]
    exact (endPlayer_driven s p k _).2

/-! ## END steps and bad records -/

/-- A record reads as a step exactly where its fields lie in their ranges (R114, R189). -/
theorem decodeStep_isSome (record : List Byte) : (decodeStep record).isSome = recordInRange record := by
  have condition (n : Nat) : inRange 0 2 n = (conditionArg n).isSome := by
    obtain rfl | rfl | rfl | h : n = 0 ∨ n = 1 ∨ n = 2 ∨ 2 < n := by omega
    · rfl
    · rfl
    · rfl
    · have : n ≠ 0 ∧ n ≠ 1 ∧ n ≠ 2 := by omega
      simp [inRange, conditionArg, this, h]
  have mode (n : Nat) : inRange 0 1 n = (modeArg n).isSome := by
    obtain rfl | rfl | h : n = 0 ∨ n = 1 ∨ 1 < n := by omega
    · rfl
    · rfl
    · have : n ≠ 0 ∧ n ≠ 1 := by omega
      simp [inRange, modeArg, this, h]
  unfold decodeStep recordInRange
  dsimp only
  generalize byteAt record 0 = kind
  match kind with
  | 0 => rfl
  | 1 =>
    simp only [contributor_inRange, bus_inRange]
    cases contributorArg (byteAt record 1) <;> cases busArg (byteAt record 2) <;> rfl
  | 2 =>
    simp only [line_inRange]
    cases lineArg (byteAt record 1) <;> rfl
  | 3 =>
    simp only [line_inRange, placeBus_inRange, hold_inRange]
    cases lineArg (byteAt record 1) <;> cases placeBusArg (byteAt record 2) <;> cases holdArg (byteAt record 3) <;> rfl
  | 4 =>
    simp only [line_inRange, source_inRange]
    cases lineArg (byteAt record 1) <;> cases sourceArg (byteAt record 2) <;> rfl
  | 5 =>
    simp only [line_inRange]
    cases lineArg (byteAt record 1) <;> rfl
  | 6 =>
    simp only [line_inRange, setting_inRange]
    cases lineArg (byteAt record 1) <;> cases settingArg (byteAt record 2) <;> rfl
  | 7 => rfl
  | 8 =>
    simp only [line_inRange, condition, mode]
    cases lineArg (byteAt record 1) <;> cases conditionArg (byteAt record 2) <;> cases modeArg (byteAt record 5) <;> rfl
  | 9 =>
    by_cases h : 1 ≤ byteAt record 1 ∧ byteAt record 1 ≤ 16
    · simp [inRange, h]
    · simp [inRange, h]
      omega
  | 10 => rfl
  | n + 11 => rfl

/-- The command of a kind takes the step of a record of that kind. -/
theorem stepOfKind_takes {p : Port} {kind : Nat} {c : Instr} (command : stepOfKind p kind = some c) (s : State) :
    ∃ carry : StepBody → State, exec c s = s.takeStep p kind carry := by
  unfold stepOfKind at command
  split at command <;> cases command <;> exact ⟨_, rfl⟩

/-- Settles O34: the check that fails, in its order. -/
theorem endAndBadRecordsEndThePlayer : Obligations.EndAndBadRecordsEndThePlayer := by
  refine ⟨fun p rest s _ stands => ?_, fun p s stepping invalid => ?_, fun p record s stands malformed => ?_,
    fun p record c s stands malformed command => ?_, fun record => ?_⟩
  · have run : exec (.stepEnd p) s = .next (s.endPlayer p .ended (s.player p).addr).driveNotices := by
      refine (takeStep_here stands rfl _).trans ?_
      rw [examine_carries (b := .stop) stands rfl (.inr rfl) (.inl rfl)]
      rfl
    obtain ⟨players, discarded⟩ := State.endPlayer_spec s p .ended (s.player p).addr
    exact ⟨_, run, ⟨rfl, rfl, rfl, rfl, rfl, rfl⟩, driven_of_same rfl, rfl, fun q hq => (players q).trans (if_neg hq),
      discarded, (players p).trans (if_pos rfl)⟩
  · refine ⟨_, congrArg Host.Outcome.next (if_pos ?_), endPlayer_faulted s p .invalid (s.player p).addr, rfl⟩
    simp [State.isStepping, stepping, invalid]
  · refine ⟨_, congrArg Host.Outcome.next (if_pos ?_), endPlayer_faulted s p .badStep (s.player p).addr, rfl⟩
    obtain ⟨stepping, valid, bytes⟩ := stands
    simp [State.isStepping, stepping, valid, bytes, malformed]
  · obtain ⟨carry, takes⟩ := stepOfKind_takes command s
    have run : exec c s = .next (s.endPlayer p (.fault .badStep) (s.player p).addr).driveNotices := by
      rw [takes, takeStep_here stands rfl, examine_malformed stands malformed]
    obtain ⟨driven, faulted⟩ := endPlayer_driven s p .badStep (s.player p).addr
    exact ⟨_, run, faulted, driven⟩
  · rw [← decodeStep_isSome, Option.isSome_eq_false_iff, Option.isNone_iff_eq_none]

/-! ## Address 255 and FREEZE -/

/-- A step that may not stand last, taken at address 255 (R131 check 3). -/
theorem takeStep_ranOff {s : State} {p : Port} {record : List Byte} {kind : Nat} {b : StepBody} (h : Examines s p record)
    (code : byteAt record 0 = kind) (body : decodeStep record = some b) (last : (s.player p).addr = 255)
    (not_last : b.mayStandLast = false) (carry : StepBody → State) :
    ∃ t, s.takeStep p kind carry = .next t ∧ NoticeDriven s t ∧ Faulted s t p .ranOff 255 := by
  rw [takeStep_here h code, examine_ranOff h body last not_last]
  exact ⟨_, rfl, endPlayer_driven s p .ranOff 255⟩

/-- A step that FREEZE holds, taken under FREEZE (R131 check 4, R139). -/
theorem takeStep_paused {s : State} {p : Port} {record : List Byte} {kind : Nat} {b : StepBody} (h : Examines s p record)
    (code : byteAt record 0 = kind) (body : decodeStep record = some b) (inside : (s.player p).addr ≠ 255)
    (held : b.heldByFreeze = true) (freeze : s.ports.freeze = true) (carry : StepBody → State) :
    ∃ t, s.takeStep p kind carry = .next t ∧ NoticeDriven s t ∧ StepAside s t ∧
      t.player p = { s.player p with state := .paused } ∧ OtherPlayersKept s t p ∧ t.lineTable = s.lineTable ∧
      t.mix = s.mix := by
  rw [takeStep_here h code, examine_paused h body inside held freeze]
  have players := State.setPlayer_spec s p { s.player p with state := .paused }
  exact ⟨_, rfl, driven_of_same rfl, ⟨rfl, rfl, rfl, rfl, rfl, rfl⟩, (players p).trans (if_pos rfl),
    fun q hq => (players q).trans (if_neg hq), rfl, rfl⟩

/-- A step held by FREEZE that may not stand last: at 255, elsewhere under FREEZE, and elsewhere without it. -/
theorem heldStep_outcome {s : State} {p : Port} {record : List Byte} {kind : Nat} {b : StepBody} {carry : StepBody → State}
    {r : Host.Outcome State Fault Refusal} (run : r = s.takeStep p kind carry) (h : Examines s p record)
    (code : byteAt record 0 = kind) (body : decodeStep record = some b) (not_last : b.mayStandLast = false)
    (held : b.heldByFreeze = true)
    (goes : (s.player p).addr ≠ 255 → s.ports.freeze = false → ∃ t, r = .next t ∧ NoticeDriven s t ∧ StepAside s t) :
    ∃ t, r = .next t ∧ NoticeDriven s t ∧ StepAside s t ∧
      ((s.player p).addr = 255 → Faulted s t p .ranOff 255) ∧
      ((s.player p).addr ≠ 255 → s.ports.freeze = true →
        t.player p = { s.player p with state := .paused } ∧ OtherPlayersKept s t p ∧ t.lineTable = s.lineTable ∧
        t.mix = s.mix) := by
  by_cases last : (s.player p).addr = 255
  · obtain ⟨t, next, driven, faulted⟩ := takeStep_ranOff h code body last not_last carry
    have ⟨_, _, _, _, aside⟩ := faulted
    exact ⟨t, run.trans next, driven, aside, fun _ => faulted, fun inside => absurd last inside⟩
  · cases freeze : s.ports.freeze with
    | true =>
      obtain ⟨t, next, driven, aside, paused⟩ := takeStep_paused h code body last held freeze carry
      exact ⟨t, run.trans next, driven, aside, fun at255 => absurd at255 last, fun _ _ => paused⟩
    | false =>
      obtain ⟨t, next, driven, aside⟩ := goes last freeze
      exact ⟨t, next, driven, aside, fun at255 => absurd at255 last, fun _ frozen => absurd frozen Bool.false_ne_true⟩

/-- Settles O35: checks 3 and 4, and elsewhere the steps of O29 and O33. -/
theorem changingStepsRunOffAndPause : Obligations.ChangingStepsRunOffAndPause := by
  refine ⟨fun p c record s stands kinds => ?_, fun p c record s stands last kinds => ?_⟩
  · obtain ⟨a, rest, length, range, rfl, rfl⟩ | ⟨n, rest, length, least, most, rfl, rfl⟩ := kinds
    · refine heldStep_outcome (actionStep_exec p a s) stands (actionRecord_kind a rest) (decodeStep_actionRecord range rest)
        rfl rfl fun inside freeze => ?_
      obtain ⟨t, next, driven, aside, -⟩ := actionStepsMirrorTheirTasks p a rest s length range stands inside freeze
      exact ⟨t, next, driven, aside⟩
    · refine heldStep_outcome rfl stands rfl (decodeStep_group least most rest) rfl rfl fun inside freeze => ?_
      obtain ⟨t, next, aside, driven, -⟩ := groupStepStagesOrFaults p n rest s length least most stands inside freeze
      exact ⟨t, next, driven, aside⟩
  · obtain ⟨l, x, rest, length, rfl, rfl⟩ | ⟨l, rest, -, rfl, rfl⟩ := kinds
    · match rest, length with
      | [g1, g0, d1, d0, u], _ => exact takeStep_ranOff stands rfl (decodeStep_talkOn l x g1 g0 d1 d0 u) last rfl _
    · exact takeStep_ranOff stands rfl (decodeStep_talkOff l rest) last rfl _

end Sys2Proof.Proofs.CueGroups


namespace Sys2Proof.Proofs.PendingGroups

open Sys2Proof Sys2Proof.Machine Sys2Proof.Safety Sys2Proof.Proofs.Effects Sys2Proof.Proofs.Outputs

/-! ## The last write of a group (R38) -/

/-- The last write of a group and one more action. -/
theorem lastWrite_append {α : Type} (g : List Staged) (a : Staged) (f : Action → Option α) :
    lastWrite (g ++ [a]) f = (f a.action).or (lastWrite g f) := by
  rw [lastWrite, lastWrite, List.reverse_append, List.reverse_singleton, List.singleton_append, List.findSome?_cons]
  cases f a.action <;> rfl

/-- What a group leaves in an item is what its last write of it says: `read` is the item, `f` what an action writes into it, `wrote`
the item so written, and `keeps` what the actions leave of the record. -/
theorem foldl_lastWrite {α β γ : Type} {step : β → Action → β} {keeps : β → Prop} {read : β → γ} {f : Action → Option α}
    {wrote : α → γ} (kept : ∀ x a, keeps x → keeps (step x a))
    (writes : ∀ x a, keeps x → read (step x a) = (f a).elim (read x) wrote) (g : List Staged) {x : β} (start : keeps x) :
    read (g.foldl (fun y a => step y a.action) x) = (lastWrite g f).elim (read x) wrote := by
  have all : keeps (g.foldl (fun y a => step y a.action) x) ∧
      read (g.foldl (fun y a => step y a.action) x) = (lastWrite g f).elim (read x) wrote := by
    induction g using List.reverseRecOn with
    | nil => exact ⟨start, rfl⟩
    | append_singleton g a ih =>
      obtain ⟨before, item⟩ := ih
      rw [List.foldl_append, List.foldl_cons, List.foldl_nil, lastWrite_append]
      refine ⟨kept _ _ before, (writes _ a.action before).trans ?_⟩
      cases f a.action with
      | none => exact item
      | some v => rfl
  exact all.2

/-- The same where what an action writes is the item itself, whatever the record. -/
theorem foldl_lastWrite_getD {β γ : Type} {step : β → Action → β} {read : β → γ} {f : Action → Option γ}
    (writes : ∀ x a, read (step x a) = (f a).getD (read x)) (g : List Staged) (x : β) :
    read (g.foldl (fun y a => step y a.action) x) = (lastWrite g f).getD (read x) := by
  have last := foldl_lastWrite (keeps := fun _ => True) (wrote := id) (read := read) (f := f) (step := step) (fun _ _ => id)
    (fun y a _ => (writes y a).trans (by cases f a <;> rfl)) g (x := x) trivial
  rw [last]
  cases lastWrite g f <;> rfl

/-! ## A group in the bank -/

/-- Actions write cell targets, stored trims and trim targets, and nothing else of the bank (R42, R65). -/
theorem actionOnMix_kept (m : MixEngine) (a : Action) :
    actionOnMix m a = { m with
      cells := (actionOnMix m a).cells, storedTrim := (actionOnMix m a).storedTrim, trim := (actionOnMix m a).trim } := by
  cases a with
  | cell c b v => rfl
  | trim l v => exact (MixEngine.writeStoredTrim_spec m l v).1
  | place l bus hold => rfl
  | tone l on => rfl

/-- A group leaves what its actions leave. -/
theorem foldl_actionOnMix_kept (g : List Staged) (m : MixEngine) :
    g.foldl (fun m a => actionOnMix m a.action) m = { m with
      cells := (g.foldl (fun m a => actionOnMix m a.action) m).cells
      storedTrim := (g.foldl (fun m a => actionOnMix m a.action) m).storedTrim
      trim := (g.foldl (fun m a => actionOnMix m a.action) m).trim } := by
  induction g generalizing m with
  | nil => rfl
  | cons a rest ih =>
    rw [List.foldl_cons, ih, actionOnMix_kept]

/-- A group acts on the bank whatever is staged. -/
theorem foldl_actionOnMix_withStaging (g : List Staged) (m : MixEngine) (x : Table 4 (Option (List Staged))) :
    g.foldl (fun m a => actionOnMix m a.action) { m with staging := x } =
      { g.foldl (fun m a => actionOnMix m a.action) m with staging := x } := by
  induction g generalizing m with
  | nil => rfl
  | cons a rest ih =>
    have first : actionOnMix { m with staging := x } a.action = { actionOnMix m a.action with staging := x } := by
      cases a.action <;> rfl
    rw [List.foldl_cons, List.foldl_cons, first, ih]

/-- A cell's target after a group (R38, R42). -/
theorem foldl_actionOnMix_cell (g : List Staged) (m : MixEngine) (c : Contributor) (b : Bus) :
    (tget (tget (g.foldl (fun m a => actionOnMix m a.action) m).cells c) b).target =
      (lastWrite g (cellWrite c b)).getD (tget (tget m.cells c) b).target := by
  refine foldl_lastWrite_getD (step := actionOnMix) (read := fun m => (tget (tget m.cells c) b).target) (fun m a => ?_) g m
  cases a with
  | cell c' b' v =>
    have spec := (MixEngine.writeCells_spec m (fun k j => k == c' && j == b') v).2 c b
    simp only [actionOnMix, cellWrite, spec]
    by_cases h : c' = c ∧ b' = b
    · obtain ⟨rfl, rfl⟩ := h
      simp
    · have other : (c == c' && b == b') = false := by
        simp only [Bool.and_eq_false_iff, beq_eq_false_iff_ne]
        by_cases hc : c = c'
        · exact .inr fun hb => h ⟨hc.symm, hb.symm⟩
        · exact .inl hc
      simp [other, h]
  | trim l v => rfl
  | place l bus hold => rfl
  | tone l on => rfl

/-- A stored trim and its target after a group (R30, R38, R65). -/
theorem foldl_actionOnMix_trim (g : List Staged) (m : MixEngine) (l : Line) :
    tget (g.foldl (fun m a => actionOnMix m a.action) m).storedTrim l =
      (lastWrite g (trimWrite l)).getD (tget m.storedTrim l) ∧
    (tget (g.foldl (fun m a => actionOnMix m a.action) m).trim l).target =
      (lastWrite g (trimWrite l)).elim (tget m.trim l).target fun v => v * tget m.trimDuck l / 32768 := by
  constructor
  · refine foldl_lastWrite_getD (step := actionOnMix) (read := fun m => tget m.storedTrim l) (fun m a => ?_) g m
    cases a with
    | cell c b v => rfl
    | trim k v =>
      refine ((MixEngine.writeStoredTrim_spec m k v).2 l).1.trans ?_
      by_cases h : k = l
      · subst h
        simp [trimWrite]
      · simp [trimWrite, h, Ne.symm h]
    | place k bus hold => rfl
    | tone k on => rfl
  · refine foldl_lastWrite (step := actionOnMix) (keeps := fun n => n.trimDuck = m.trimDuck)
      (read := fun m => (tget m.trim l).target) (fun n a same => ?_) (fun n a same => ?_) g rfl
    · rw [actionOnMix_kept]
      exact same
    · cases a with
      | cell c b v => rfl
      | trim k v =>
        have spec := ((MixEngine.writeStoredTrim_spec n k v).2 l).2
        by_cases h : k = l
        · subst h
          simp only [actionOnMix, spec, trimWrite, if_true, aimed_target, same, Option.elim]
        · simp only [actionOnMix, spec, trimWrite, if_neg h, if_neg (Ne.symm h), Option.elim]
      | place k bus hold => rfl
      | tone k on => rfl

/-! ## A group in the Line Table -/

/-- What the last placement of a line leaves of its status (R63). -/
def placedStatus : Option Bus → LineStatus
  | some _ => .placed
  | none => .held

/-- The placement fields of a line after one action (R62, R63, R67). -/
theorem actionOnLine_writes (l : Line) (r : LineRec) (a : Action) :
    (actionOnLine l r a).status = (busWrite l a).elim r.status placedStatus ∧
    (actionOnLine l r a).bus = (busWrite l a).getD r.bus ∧ (actionOnLine l r a).hold = (holdWrite l a).getD r.hold ∧
    (actionOnLine l r a).tone = (toneWrite l a).getD r.tone := by
  cases a with
  | cell c b v => exact ⟨rfl, rfl, rfl, rfl⟩
  | trim k v => exact ⟨rfl, rfl, rfl, rfl⟩
  | place k bus hold =>
    by_cases h : k = l
    · subst h
      cases bus <;> cases hold <;> simp [actionOnLine, busWrite, holdWrite, toneWrite, LineRec.placedOn, placedStatus]
    · simp [actionOnLine, busWrite, holdWrite, toneWrite, h, Ne.symm h]
  | tone k on =>
    by_cases h : k = l
    · subst h
      simp [actionOnLine, busWrite, holdWrite, toneWrite]
    · simp [actionOnLine, busWrite, holdWrite, toneWrite, h, Ne.symm h]

/-- The placement fields of a line after a group (R38). -/
theorem foldl_actionOnLine_writes (l : Line) (g : List Staged) (r : LineRec) :
    g.foldl (fun r a => actionOnLine l r a.action) r = { r with
      status := (lastWrite g (busWrite l)).elim r.status placedStatus
      bus := (lastWrite g (busWrite l)).getD r.bus
      hold := (lastWrite g (holdWrite l)).getD r.hold
      tone := (lastWrite g (toneWrite l)).getD r.tone } := by
  have status := foldl_lastWrite (step := actionOnLine l) (keeps := fun _ => True) (read := LineRec.status) (fun _ _ => id)
    (fun x a _ => (actionOnLine_writes l x a).1) g (x := r) trivial
  have bus := foldl_lastWrite_getD (step := actionOnLine l) (read := LineRec.bus)
    (fun x a => (actionOnLine_writes l x a).2.1) g r
  have hold := foldl_lastWrite_getD (step := actionOnLine l) (read := LineRec.hold)
    (fun x a => (actionOnLine_writes l x a).2.2.1) g r
  have tone := foldl_lastWrite_getD (step := actionOnLine l) (read := LineRec.tone)
    (fun x a => (actionOnLine_writes l x a).2.2.2) g r
  rw [foldl_actionOnLine_kept, status, bus, hold, tone]

/-! ## Every pending group (part 1 of R9) -/

/-- The actions of the groups pending for these ports, in their order (R38). -/
def pendingActions (s : State) (ps : List Port) : List Staged := ps.flatMap fun p => (tget s.mix.staging p).getD []

/-- The player after a frame event's groups: past its own group, where it had one pending (R138). -/
def afterGroup (x : Player) : Option (List Staged) → Player
  | some group => { x with state := .stepping, addr := x.addr + group.length + 1 }
  | none => x

/-- The groups of these ports, applied in their order: lines, bank, staging list and players (R38, R138). -/
theorem foldl_applyPending_spec (ps : List Port) (once : ps.Nodup) (s : State) :
    (∀ k, (ps.foldl State.applyPending s).line k =
      (pendingActions s ps).foldl (fun r a => actionOnLine k r a.action) (s.line k)) ∧
    (ps.foldl State.applyPending s).lineTable.busOwner = s.lineTable.busOwner ∧
    (ps.foldl State.applyPending s).mix = { (pendingActions s ps).foldl (fun m a => actionOnMix m a.action) s.mix with
      staging := (ps.foldl State.applyPending s).mix.staging } ∧
    (∀ q, tget (ps.foldl State.applyPending s).mix.staging q = if q ∈ ps then none else tget s.mix.staging q) ∧
    ∀ q, (ps.foldl State.applyPending s).player q =
      if q ∈ ps then afterGroup (s.player q) (tget s.mix.staging q) else s.player q := by
  induction ps generalizing s with
  | nil => exact ⟨fun _ => rfl, rfl, rfl, fun _ => rfl, fun _ => rfl⟩
  | cons p rest ih =>
    obtain ⟨fresh, once⟩ := List.nodup_cons.1 once
    obtain ⟨lines, owners, mix, staging, players⟩ := ih once (s.applyPending p)
    have first := applyPending_spec s p
    rw [List.foldl_cons]
    cases staged : tget s.mix.staging p with
    | none =>
      simp only [staged] at first
      have actions : pendingActions s (p :: rest) = pendingActions s rest := by simp [pendingActions, staged]
      rw [first] at lines owners mix staging players ⊢
      rw [actions]
      refine ⟨lines, owners, mix, fun q => ?_, fun q => ?_⟩
      · by_cases e : q = p
        · subst e
          simp [staging, fresh, staged]
        · simp [staging, e]
      · by_cases e : q = p
        · subst e
          simp [players, fresh, staged, afterGroup]
        · simp [players, e]
    | some g =>
      simp only [staged] at first
      obtain ⟨line1, owner1, mix1, player1⟩ := first
      have staging1 (q : Port) : tget (s.applyPending p).mix.staging q = if q = p then none else tget s.mix.staging q := by
        rw [mix1]
        exact tget_tset s.mix.staging p q none
      have later : pendingActions (s.applyPending p) rest = pendingActions s rest :=
        List.flatMap_congr fun q hq => by
          have other : q ≠ p := fun e => fresh (e ▸ hq)
          rw [staging1, if_neg other]
      have actions : pendingActions s (p :: rest) = g ++ pendingActions s rest := by simp [pendingActions, staged]
      rw [actions]
      refine ⟨fun k => ?_, owners.trans owner1, ?_, fun q => ?_, fun q => ?_⟩
      · rw [lines, later, line1, List.foldl_append]
      · rw [mix, later, mix1, List.foldl_append]
        rw [foldl_actionOnMix_withStaging]
      · rw [staging, staging1]
        by_cases e : q = p
        · simp [e]
        · simp [e]
      · rw [players, staging1, player1]
        by_cases e : q = p
        · subst e
          simp [fresh, staged, afterGroup]
        · simp [e]

end Sys2Proof.Proofs.PendingGroups


namespace Sys2Proof.Proofs.FrameEvents

open Sys2Proof Sys2Proof.Machine Sys2Proof.Safety Sys2Proof.Proofs.Courses Sys2Proof.Proofs.Effects Sys2Proof.Proofs.Outputs
  Sys2Proof.Proofs.PendingGroups

/-! ## Expiries still due (log 4) -/

/-- What no expiry touches: the line records but their waiters, bus owners, memory, valid marks, FREEZE level, and the Notice Unit
but its unread views. -/
structure Steady (s t : State) : Prop where
  lines : ∀ l, { t.line l with waiters := tall none } = { s.line l with waiters := tall none }
  busOwner : t.lineTable.busOwner = s.lineTable.busOwner
  mem : t.cue.mem = s.cue.mem
  valid : t.cue.valid = s.cue.valid
  freeze : t.ports.freeze = s.ports.freeze
  notice : { t.notice with unreadView := tall false } = { s.notice with unreadView := tall false }

theorem Steady.refl (s : State) : Steady s s := ⟨fun _ => rfl, rfl, rfl, rfl, rfl, rfl⟩

theorem Steady.trans {s t u : State} (h : Steady s t) (k : Steady t u) : Steady s u :=
  ⟨fun l => (k.lines l).trans (h.lines l), k.busOwner.trans h.busOwner, k.mem.trans h.mem, k.valid.trans h.valid,
    k.freeze.trans h.freeze, k.notice.trans h.notice⟩

/-- An expiry that leaves lines, ports and notices. -/
theorem Steady.of_same {s t : State} (lines : t.lineTable = s.lineTable) (mem : t.cue.mem = s.cue.mem)
    (valid : t.cue.valid = s.cue.valid) (ports : t.ports = s.ports) (notice : t.notice = s.notice) : Steady s t :=
  ⟨fun l => by rw [line_congr lines], by rw [lines], mem, valid, by rw [ports], by rw [notice]⟩

theorem Steady.foldl {β : Type} {f : State → β → State} (each : ∀ s b, Steady s (f s b)) (l : List β) (s : State) :
    Steady s (l.foldl f s) := by
  induction l generalizing s with
  | nil => exact .refl s
  | cons b rest ih => exact (each s b).trans (ih _)

theorem expireClaimWait_steady (s : State) (l : Line) (p : Port) : Steady s (s.expireClaimWait l p) := by
  unfold State.expireClaimWait
  split
  · obtain ⟨⟨table, others⟩, line, -, freeze, -, notice⟩ := State.endWait_spec s l p .timeout
    have cue : (s.endWait l p .timeout).cue = s.cue := by simp
    refine ⟨fun k => ?_, by rw [table], by rw [cue], by rw [cue], freeze, by rw [notice]⟩
    by_cases e : k = l
    · rw [e, line]
    · rw [others k e]
  · exact .refl s

theorem expirePort_steady (s : State) (p : Port) : Steady s (s.expirePort p) := by
  have claims := Steady.foldl (fun t l => expireClaimWait_steady t l p) (List.finRange 24) s
  have chunk (t : State) : Steady t (t.expireChunkTimer p) := by
    refine .of_same (by simp) ?_ ?_ (by simp) (by simp) <;>
    · unfold State.expireChunkTimer
      split <;> rfl
  have wait (t : State) : Steady t (t.expireWaitTimer p) := .of_same (by simp) (by simp) (by simp) (by simp) (by simp)
  have await (t : State) : Steady t (t.expireAwaitTimer p) := .of_same (by simp) (by simp) (by simp) (by simp) (by simp)
  exact ((claims.trans (chunk _)).trans (wait _)).trans (await _)

/-- The expiries still due at a frame event leave what no expiry touches. -/
theorem expireOverdue_steady (s : State) : Steady s s.expireOverdue :=
  have snapshot (t : State) : Steady t t.expireSnapshot := .of_same (by simp) (by simp) (by simp) (by simp) (by simp)
  (Steady.foldl expirePort_steady _ s).trans (snapshot _)

/-- Where nothing is overdue no expiry is taken. -/
theorem expireOverdue_eq {s : State} (quiet : NothingOverdue s) : s.expireOverdue = s := by
  obtain ⟨claims, chunk, wait, await, snapshot⟩ := quiet
  have port (p : Port) : s.expirePort p = s := by
    have claim (l : Line) : s.expireClaimWait l p = s := if_neg (by simpa [State.claimWaitDue] using claims l p)
    have chunk : s.expireChunkTimer p = s := if_neg (by simp [chunk p])
    have wait : s.expireWaitTimer p = s := if_neg (by simp [wait p])
    have await : s.expireAwaitTimer p = s := by
      unfold State.expireAwaitTimer
      split
      · rename_i state
        exact absurd state (await p _ _ _)
      · rename_i state
        exact absurd state (await p _ _ _)
      · rfl
    rw [State.expirePort, List.foldl_fixed' claim, chunk, wait, await]
  rw [State.expireOverdue, List.foldl_fixed' port]
  exact if_neg (by simp [snapshot])

/-! ## Groups and ramps (parts 1 and 2 of R9) -/

/-- The actions of every pending group, in port order (R38). -/
def allActions (s : State) : List Staged := pendingActions s (List.finRange 4)

/-- Every pending group applied: lines, bank, staging list and players (R38, R138). -/
theorem applyGroups_spec (s : State) :
    (∀ k, s.applyGroups.line k = (allActions s).foldl (fun r a => actionOnLine k r a.action) (s.line k)) ∧
    s.applyGroups.lineTable.busOwner = s.lineTable.busOwner ∧
    s.applyGroups.mix =
      { (allActions s).foldl (fun m a => actionOnMix m a.action) s.mix with staging := s.applyGroups.mix.staging } ∧
    (∀ q, tget s.applyGroups.mix.staging q = none) ∧
    ∀ q, s.applyGroups.player q = afterGroup (s.player q) (tget s.mix.staging q) := by
  obtain ⟨lines, owners, mix, staging, players⟩ := foldl_applyPending_spec (List.finRange 4) (List.nodup_finRange 4) s
  exact ⟨lines, owners, mix, fun q => (staging q).trans (if_pos (List.mem_finRange q)),
    fun q => (players q).trans (if_pos (List.mem_finRange q))⟩

/-- The state after parts 1 and 2. -/
def ramped (s : State) : State := s.applyGroups.withMix s.applyGroups.mix.stepRamps

/-- Parts 1 and 2: every group, then every ramp (R38, R32). -/
theorem ramped_spec (s : State) :
    (∀ k, (ramped s).line k = (allActions s).foldl (fun r a => actionOnLine k r a.action) (s.line k)) ∧
    (ramped s).lineTable.busOwner = s.lineTable.busOwner ∧
    (ramped s).mix = { ((allActions s).foldl (fun m a => actionOnMix m a.action) s.mix).stepRamps with
      staging := (ramped s).mix.staging } ∧
    (∀ q, tget (ramped s).mix.staging q = none) ∧
    ∀ q, (ramped s).player q = afterGroup (s.player q) (tget s.mix.staging q) := by
  obtain ⟨lines, owners, mix, staging, players⟩ := applyGroups_spec s
  refine ⟨fun k => (line_congr (by simp [ramped]) k).trans (lines k), owners, ?_, staging, players⟩
  exact congrArg MixEngine.stepRamps mix

/-- Parts 1 and 2 leave the other blocks. -/
theorem ramped_frame (s : State) :
    (ramped s).cue = s.cue ∧ (ramped s).meter = s.meter ∧ (ramped s).clock = s.clock ∧ (ramped s).ports = s.ports ∧
    (ramped s).notice = s.notice ∧ (ramped s).free = s.free ∧ (ramped s).pending = s.pending := by
  simp [ramped]

/-! ## Timers, groups and ramps -/

/-- The state whose currents and line fields a frame event's outputs are made of: after the timers, the groups and the ramps. -/
def mixed (s : State) : State := ramped s.expireOverdue.tickTimers

/-- Neither expiries nor timers touch the bank, so the groups pending are those before the frame event. -/
theorem timed_actions (s : State) : allActions s.expireOverdue.tickTimers = allActions s := by
  have same : s.expireOverdue.tickTimers.mix = s.mix := by simp
  rw [allActions, allActions, pendingActions, pendingActions, same]

/-- The bank after parts 1 and 2. -/
theorem mixed_mix (s : State) :
    (mixed s).mix = { ((allActions s).foldl (fun m a => actionOnMix m a.action) s.mix).stepRamps with
      staging := (mixed s).mix.staging } ∧ ∀ q, tget (mixed s).mix.staging q = none := by
  have same : s.expireOverdue.tickTimers.mix = s.mix := by simp
  obtain ⟨-, -, mix, staging, -⟩ := ramped_spec s.expireOverdue.tickTimers
  rw [timed_actions, same] at mix
  exact ⟨mix, staging⟩

/-- What parts 1 and 2 leave of the bank, and the park gain stepped. -/
theorem mixed_kept (s : State) :
    (mixed s).mix.tonePhase = s.mix.tonePhase ∧ (mixed s).mix.trimDuck = s.mix.trimDuck ∧
    (mixed s).mix.lastTalk = s.mix.lastTalk ∧ (mixed s).mix.parkSource = s.mix.parkSource ∧
    (mixed s).mix.parkGain = s.mix.parkGain.step ∧ ∀ l, tget (mixed s).mix.talkLevel l = (tget s.mix.talkLevel l).step := by
  obtain ⟨mix, -⟩ := mixed_mix s
  have kept := foldl_actionOnMix_kept (allActions s) s.mix
  generalize (allActions s).foldl (fun m a => actionOnMix m a.action) s.mix = m at mix kept
  have still : m.tonePhase = s.mix.tonePhase ∧ m.trimDuck = s.mix.trimDuck ∧ m.lastTalk = s.mix.lastTalk ∧
      m.parkSource = s.mix.parkSource ∧ m.parkGain = s.mix.parkGain ∧ m.talkLevel = s.mix.talkLevel := by
    rw [kept]
    simp
  obtain ⟨phase, duck, last, source, gain, level⟩ := still
  rw [mix]
  exact ⟨phase, duck, last, source, congrArg Ramp.step gain, fun l => (tget_tmake _ l).trans (by rw [level])⟩

/-- Two lines alike but for their waiters are alike once they have the same. -/
theorem withWaiters_eq {r x : LineRec} (h : { r with waiters := tall none } = { x with waiters := tall none })
    (w : Table 4 (Option TimeLeft)) : { r with waiters := w } = { x with waiters := w } :=
  congrArg (fun y : LineRec => { y with waiters := w }) h

/-- A line after parts 1 and 2: as the groups leave it, with its waits as the expiries and the timers leave them. -/
theorem mixed_line (s : State) (l : Line) :
    (mixed s).line l = (allActions s).foldl (fun r a => actionOnLine l r a.action)
      { s.line l with waiters := tmake fun p => (tget (s.expireOverdue.line l).waiters p).map TimeLeft.tick } := by
  have ticked := (tickTimers_spec s.expireOverdue).1 l
  have steady := withWaiters_eq ((expireOverdue_steady s).lines l)
    (tmake fun p => (tget (s.expireOverdue.line l).waiters p).map TimeLeft.tick)
  have lines := (ramped_spec s.expireOverdue.tickTimers).1 l
  rw [timed_actions, ticked.trans steady] at lines
  exact lines

/-- A player after parts 1 and 2. -/
theorem mixed_player (s : State) (q : Port) :
    (mixed s).player q = afterGroup
      { s.expireOverdue.player q with state := (s.expireOverdue.player q).state.tick } (tget s.mix.staging q) := by
  have same : s.expireOverdue.tickTimers.mix = s.mix := by simp
  obtain ⟨-, -, -, -, players⟩ := ramped_spec s.expireOverdue.tickTimers
  obtain ⟨-, -, -, -, ticked, -⟩ := tickTimers_spec s.expireOverdue
  rw [mixed, players, ticked, same]

/-- What parts 1 and 2 leave of the other blocks, beside the expiries. -/
theorem mixed_frame (s : State) :
    (mixed s).lineTable.busOwner = s.lineTable.busOwner ∧ (mixed s).cue.mem = s.cue.mem ∧ (mixed s).cue.valid = s.cue.valid ∧
    (∀ p, (mixed s).loader p =
      { s.expireOverdue.loader p with timer := (s.expireOverdue.loader p).timer.map fun n => n - 1 }) ∧
    (mixed s).meter = { s.expireOverdue.meter with
      buffer := s.expireOverdue.meter.buffer.map fun b => { b with timer := b.timer - 1 } } ∧
    (mixed s).clock = s.clock.tick ∧ (mixed s).ports = s.expireOverdue.ports ∧
    (mixed s).notice = s.expireOverdue.notice ∧ (mixed s).free = s.free ∧ (mixed s).pending = s.pending := by
  obtain ⟨-, owners, -⟩ := ramped_spec s.expireOverdue.tickTimers
  obtain ⟨cues, meters, clocks, ports, notices, free, pending⟩ := ramped_frame s.expireOverdue.tickTimers
  obtain ⟨-, owner, -, loaders, -, meter, clock⟩ := tickTimers_spec s.expireOverdue
  obtain ⟨-, busOwner, mem, valid, -, -⟩ := expireOverdue_steady s
  refine ⟨(owners.trans owner).trans busOwner, ?_, ?_, fun p => ?_, meters.trans meter, ?_, ?_, ?_, ?_, ?_⟩
  · rw [mixed, cues, ← mem]
    simp [State.tickTimers]
  · rw [mixed, cues, ← valid]
    simp [State.tickTimers]
  · rw [mixed, loader_congr cues, loaders]
  · rw [mixed, clocks, clock]
    simp
  · rw [mixed, ports]
    simp
  · rw [mixed, notices]
    simp
  · rw [mixed, free]
    simp
  · rw [mixed, pending]
    simp

/-! ## Outputs, meters and tone phase (parts 3 to 7 of R9) -/

/-- The outputs of a frame event transmitted. -/
def transmitted (s : State) (o : Table 32 (Int × Bool)) : State :=
  s.withMix { s.mix with out := tmake fun i => (tget o i).1 }

/-- The frame event's state, from that before its outputs. -/
def framed (s : State) (o : Table 32 (Int × Bool)) : State :=
  (((transmitted s o).reportMeters o).withMix
    { ((transmitted s o).reportMeters o).mix with
      tonePhase := (((transmitted s o).reportMeters o).mix.tonePhase + 1) % 48 }).driveNotices

/-- Parts 1 and 2, then parts 3 to 7 from the outputs made of them. -/
theorem frameParts_eq (s : State) (rx : InputFrame) : (s.frameParts rx).driveNotices = framed (ramped s) ((ramped s).outputs rx) :=
  rfl

/-- A frame event while the generator runs (R9). -/
theorem frameEvent_eq {s : State} (running : s.clock.running = true) (rx : InputFrame) :
    exec (.frameEvent rx) s = .next (framed (mixed s) ((mixed s).outputs rx)) :=
  congrArg Host.Outcome.next ((if_pos running).trans (frameParts_eq _ rx))

/-- No frame event before frames begin (R8). -/
theorem frameEvent_idle {s : State} (idle : s.clock.running = false) (rx : InputFrame) :
    exec (.frameEvent rx) s = .next s :=
  congrArg Host.Outcome.next (if_neg (by simp [idle]))

/-- Parts 3 to 7 leave lines, cue store, players and clock; of the bank they write outputs and tone phase. -/
theorem framed_frame (s : State) (o : Table 32 (Int × Bool)) :
    (framed s o).lineTable = s.lineTable ∧
    (framed s o).mix = { s.mix with out := tmake fun i => (tget o i).1, tonePhase := (s.mix.tonePhase + 1) % 48 } ∧
    (framed s o).cue = s.cue ∧ (framed s o).players = s.players ∧ (framed s o).clock = s.clock ∧
    (framed s o).free = s.free ∧ (framed s o).pending = s.pending ∧
    (framed s o).meter = ((transmitted s o).reportMeters o).meter ∧
    (framed s o).ports = ((transmitted s o).reportMeters o).ports := by
  simp [framed, transmitted]

/-- The notices after parts 3 to 7: unread marks told, notice lines driven. -/
theorem framed_notice (s : State) (o : Table 32 (Int × Bool)) :
    (framed s o).notice = { s.notice with unreadView := (framed s o).notice.unreadView, line := (framed s o).notice.line } ∧
    NoticeLinesFollow (framed s o) ∧ (framed s o).ports.freeze = s.ports.freeze := by
  obtain ⟨driven, follow⟩ := State.driveNotices_spec (((transmitted s o).reportMeters o).withMix
    { ((transmitted s o).reportMeters o).mix with
      tonePhase := (((transmitted s o).reportMeters o).mix.tonePhase + 1) % 48 })
  have captured := capture_spec ((transmitted s o).withMeter { (transmitted s o).meter with
    live := tmake fun i => (tget (transmitted s o).meter.live i).report (tget o i).1.natAbs (tget o i).2 })
  have report : ((transmitted s o).reportMeters o).notice =
        { s.notice with unreadView := ((transmitted s o).reportMeters o).notice.unreadView } ∧
      ((transmitted s o).reportMeters o).ports.freeze = s.ports.freeze := by
    rw [State.reportMeters]
    split at captured
    · rw [captured]
      exact ⟨rfl, rfl⟩
    · obtain ⟨-, -, freeze, -, notice⟩ := captured
      exact ⟨notice, freeze⟩
  obtain ⟨notice, freeze⟩ := report
  refine ⟨?_, follow, freeze⟩
  have same : (framed s o).notice = { ((transmitted s o).reportMeters o).notice with line := (framed s o).notice.line } := driven
  rw [same, notice]

end Sys2Proof.Proofs.FrameEvents


namespace Sys2Proof.Proofs.FrameOutputs

open Sys2Proof Sys2Proof.Machine Sys2Proof.Safety Sys2Proof.Proofs.Courses Sys2Proof.Proofs.Effects
  Sys2Proof.Proofs.FrameEvents

/-! ## The terms of an output -/

/-- The model's inputs in the words of the statements (R11, R4). -/
theorem input_eq (s : State) (rx : InputFrame) (c : Contributor) : s.input rx c = inputOf s rx c := by
  unfold State.input inputOf rxSample
  cases c.line? <;> rfl

/-- A sum of 40 terms less one of them is the sum of the others. -/
theorem sum_sub_own (f : Contributor → Int) (k : Contributor) :
    ((List.finRange 40).map f).sum - f k = ((List.finRange 40).map fun c => if c != k then f c else 0).sum := by
  rw [← Fin.sum_univ_def, ← Fin.sum_univ_def, ← Finset.sum_filter]
  have split := Finset.sum_erase_add Finset.univ f (Finset.mem_univ k)
  have others : Finset.univ.filter (fun c => (c != k) = true) = Finset.univ.erase k := by
    ext c
    simp
  rw [others, ← split, Int.add_sub_cancel]

section
variable (s : State) (rx : InputFrame)

/-- The inputs of a frame (part 3). -/
def inputs : Table 40 Int := tmake fun c => s.input rx c

theorem tget_inputs (c : Contributor) : tget (inputs s rx) c = inputOf s rx c :=
  (tget_tmake _ c).trans (input_eq s rx c)

/-- The accumulators of a frame (part 4). -/
def accumulators : Table 8 Int := tmake fun b => s.accumulator (inputs s rx) b

/-- A product of stage A (R14). -/
theorem product_eq (c : Contributor) (b : Bus) : s.product (inputs s rx) c b = inputOf s rx c * gainOf s c b :=
  congrArg (· * gainOf s c b) (tget_inputs s rx c)

/-- A bus accumulator is the sum of its 40 products (R15). -/
theorem tget_accumulators (b : Bus) : tget (accumulators s rx) b = sumOn s rx b fun _ => true := by
  refine (tget_tmake _ b).trans (congrArg List.sum (List.map_congr_left fun c _ => ?_))
  exact product_eq s rx c b

/-- The source a line not PLACED hears (R18). -/
theorem feedSource_eq (l : Line) : s.feedSource l =
    if (s.line l).status = .held then (s.line l).hold.getD s.mix.parkSource else s.mix.parkSource := by
  unfold State.feedSource
  cases (s.line l).status <;> cases (s.line l).hold <;> rfl

/-- The program term, the own product taken off (R17, R18). -/
theorem programTerm_eq (l : Line) : s.programTerm (inputs s rx) (accumulators s rx) l = programOf s rx l := by
  have feed : tget (inputs s rx) (Source.contributor (s.feedSource l)) * (s.mix.parkGain.current : Int) = feedOf s rx l := by
    rw [tget_inputs, feedSource_eq]
    rfl
  have placed (b : Bus) : tget (accumulators s rx) b - s.product (inputs s rx) (Line.contributor l) b =
      sumOn s rx b fun c => c != Line.contributor l := by
    rw [tget_accumulators, product_eq]
    exact sum_sub_own (fun c => inputOf s rx c * gainOf s c b) (Line.contributor l)
  unfold State.programTerm programOf
  cases (s.line l).status with
  | free => exact feed
  | held => exact feed
  | placed =>
    cases (s.line l).bus with
    | none => exact feed
    | some b => exact placed b

/-- The built return before saturation (R19, R20, R22, R23). -/
theorem returnSum_eq (l : Line) :
    s.programLevel (inputs s rx) (accumulators s rx) l + s.talkTerm (inputs s rx) l = returnSum s rx l := by
  simp only [State.programLevel, State.talkTerm, returnSum, rescale_eq, programTerm_eq, tget_inputs]

/-- Every output of a frame event with its clip mark is the saturation of what the statements give (R16, R23, R25, R26). -/
theorem outputs_eq (i : MeterId) : tget (s.outputs rx) i = satClip (outputOf s rx s.mix.tonePhase i) := by
  have made : tget (s.outputs rx) i =
      if h : i.val < 24 then s.lineReturn (inputs s rx) (accumulators s rx) ⟨i.val, h⟩
      else busOutput (tget (accumulators s rx) ⟨i.val - 24, by omega⟩) := tget_tmake _ i
  rw [made]
  unfold outputOf
  by_cases h : i.val < 24
  · simp only [dif_pos h]
    unfold State.lineReturn
    cases (s.line ⟨i.val, h⟩).connected with
    | false => rfl
    | true =>
      cases (s.line ⟨i.val, h⟩).tone with
      | true =>
        by_cases high : s.mix.tonePhase < 24
        · simp [high, toneSample, satClip, sat]
        · simp [high, toneSample, satClip, sat]
      | false =>
        rw [if_neg (by decide), if_neg (by decide), if_neg (by decide), if_neg (by decide), State.builtReturn, returnSum_eq]
  · simp only [dif_neg h]
    rw [busOutput, tget_accumulators, rescale_eq]

end

/-- Two states with the same lines and the same coefficients. -/
structure SameSources (s t : State) : Prop where
  lines : t.lineTable = s.lineTable
  cells : t.mix.cells = s.mix.cells
  trim : t.mix.trim = s.mix.trim
  talkLevel : t.mix.talkLevel = s.mix.talkLevel
  lastTalk : t.mix.lastTalk = s.mix.lastTalk
  parkSource : t.mix.parkSource = s.mix.parkSource
  parkGain : t.mix.parkGain = s.mix.parkGain

section
variable {s t : State} {rx rx' : InputFrame}

theorem SameSources.input (h : SameSources s t) (c : Contributor) : inputOf t rx c = inputOf s rx c := by
  simp only [inputOf, line_congr h.lines]

/-- A sum of products depends on the inputs and currents of the contributors it picks. -/
theorem SameSources.sumOn (h : SameSources s t) (b : Bus) {who : Contributor → Bool}
    (inputs : ∀ c, who c = true → inputOf t rx' c = inputOf s rx c) : sumOn t rx' b who = sumOn s rx b who := by
  refine congrArg List.sum (List.map_congr_left fun c _ => ?_)
  by_cases picked : who c = true
  · simp only [picked, if_true, inputs c picked, gainOf, h.cells]
  · simp only [picked, if_false, Bool.false_eq_true]

/-- A return depends on no input of its own line (R17). -/
theorem SameSources.returnSum (h : SameSources s t) {l : Line}
    (inputs : ∀ c, c ≠ Line.contributor l → inputOf t rx' c = inputOf s rx c) : returnSum t rx' l = returnSum s rx l := by
  have other (x : Source) : inputOf t rx' (Source.contributor x) = inputOf s rx (Source.contributor x) := by
    refine inputs _ fun e => ?_
    have line := congrArg Contributor.line? e
    simp at line
  have line := line_congr h.lines l
  have feed : feedOf t rx' l = feedOf s rx l := by
    simp only [feedOf, line, h.parkSource, h.parkGain, other]
  have program : programOf t rx' l = programOf s rx l := by
    unfold programOf
    rw [line]
    split
    · exact h.sumOn _ fun c picked => inputs c (by simpa using picked)
    · exact feed
  simp only [Safety.returnSum, program, other, h.trim, h.talkLevel, h.lastTalk]

/-- A line's output depends on no input of its own (R17, R26). -/
theorem SameSources.lineOutput (h : SameSources s t) {i : MeterId} (isLine : i.val < 24)
    (inputs : ∀ c, c ≠ Line.contributor ⟨i.val, isLine⟩ → inputOf t rx' c = inputOf s rx c) (phase : Nat) :
    outputOf t rx' phase i = outputOf s rx phase i := by
  simp only [outputOf, dif_pos isLine, line_congr h.lines, h.returnSum inputs]

/-- The outputs depend on the Line Table and the coefficients of the bank. -/
theorem SameSources.output (h : SameSources s t) (phase : Nat) (i : MeterId) : outputOf t rx phase i = outputOf s rx phase i := by
  by_cases isLine : i.val < 24
  · exact h.lineOutput isLine (fun c _ => h.input c) phase
  · simp only [outputOf, dif_neg isLine]
    rw [h.sumOn _ fun c _ => h.input c]

end

/-- What a frame event transmits (R8, R26). -/
theorem framed_out (s : State) (rx : InputFrame) (i : MeterId) :
    tget (framed s (s.outputs rx)).mix.out i = saturated (outputOf (framed s (s.outputs rx)) rx s.mix.tonePhase i) := by
  obtain ⟨lines, mix, -⟩ := framed_frame s (s.outputs rx)
  have same : SameSources s (framed s (s.outputs rx)) :=
    ⟨lines, by rw [mix], by rw [mix], by rw [mix], by rw [mix], by rw [mix], by rw [mix]⟩
  rw [same.output, mix]
  refine (tget_tmake _ i).trans ?_
  rw [outputs_eq]
  exact sat_eq _

/-! ## Link frames (R190) -/

/-- Channels and signalling word of a link frame, most significant bit first (R190). -/
theorem linkFrame_getMsbD (f : LinkFrame) (n : Fin 8) {k : Nat} (h : k < 24) :
    (channelOf f n).getMsbD k = f.getMsbD (24 * n.val + k) ∧ (signallingOf f).getMsbD k = f.getMsbD (192 + k) := by
  have hn := n.isLt
  constructor
  · rw [channelOf, BitVec.getMsbD, BitVec.getMsbD, BitVec.getLsbD_extractLsb']
    rw [show 232 - 24 * n.val + (24 - 1 - k) = 256 - 1 - (24 * n.val + k) by omega]
    have inside : 24 * n.val + k < 256 := by omega
    simp only [h, inside, decide_true, Bool.true_and, Bool.and_eq_right_iff_imp, decide_eq_true_eq]
    omega
  · rw [signallingOf, BitVec.getMsbD, BitVec.getMsbD, BitVec.getLsbD_extractLsb']
    rw [show 40 + (24 - 1 - k) = 256 - 1 - (192 + k) by omega]
    have inside : 192 + k < 256 := by omega
    simp only [h, inside, decide_true, Bool.true_and, Bool.and_eq_right_iff_imp, decide_eq_true_eq]
    omega

/-- The frame of an output link holds its samples in channel order, and zeros after them (R190). -/
theorem frameOf_getMsbD (x : Fin 8 → SampleWord) :
    (∀ (n : Fin 8) (k : Nat), k < 24 → (frameOf x).getMsbD (24 * n.val + k) = (x n).getMsbD k) ∧
    ∀ k, 192 ≤ k → (frameOf x).getMsbD k = false := by
  constructor
  · intro n k h
    show BitVec.getMsbD (w := 24 + 24 + 24 + 24 + 24 + 24 + 24 + 24 + 64)
      (x 0 ++ x 1 ++ x 2 ++ x 3 ++ x 4 ++ x 5 ++ x 6 ++ x 7 ++ 0#64) (24 * n.val + k) = (x n).getMsbD k
    fin_cases n <;> simp (disch := omega) only [BitVec.getMsbD_append, if_neg, if_pos]
    all_goals exact congrArg (BitVec.getMsbD _) (by omega)
  · intro k h
    unfold frameOf
    rw [BitVec.getMsbD_append, if_pos h]
    simp

/-- Settles O45: the outputs are made of the state after the ramps, whose lines and currents a frame event leaves. -/
theorem frameEventOutputs : Obligations.FrameEventOutputs := by
  refine ⟨fun rx s running => ⟨_, frameEvent_eq running rx, fun i => ?_⟩, fun f n k h => linkFrame_getMsbD f n h,
    fun link s running => ?_, fun link s idle => if_neg (by simp [idle])⟩
  · rw [framed_out, (mixed_kept s).1]
  · obtain ⟨samples, zeros⟩ := frameOf_getMsbD fun n => BitVec.ofInt 24 (s.outputChannel link n)
    refine ⟨_, if_pos running, fun n k h => (samples n k h).trans ?_, zeros⟩
    simp only [State.outputChannel, Nat.mul_comm]

/-! ## No line hears itself (R17) -/

/-- An input that two frames give alike. -/
theorem inputOf_of_channel (s : State) {rx rx' : InputFrame} {c : Contributor}
    (same : channelOf (tget rx ⟨c.val / 8, by omega⟩) ⟨c.val % 8, by omega⟩ =
      channelOf (tget rx' ⟨c.val / 8, by omega⟩) ⟨c.val % 8, by omega⟩) : inputOf s rx c = inputOf s rx' c := by
  simp only [inputOf, same]

/-- Settles O47: the mix minus takes the line's own product off, and no other term of its return holds its input. -/
theorem returnIgnoresOwnReceiveAudio : Obligations.ReturnIgnoresOwnReceiveAudio := by
  intro l rx rx' s same
  cases running : s.clock.running with
  | false => exact ⟨s, s, frameEvent_idle running rx, frameEvent_idle running rx', rfl⟩
  | true =>
    refine ⟨_, _, frameEvent_eq running rx, frameEvent_eq running rx', ?_⟩
    have out (r : InputFrame) : tget (framed (mixed s) ((mixed s).outputs r)).mix.out ⟨l.val, by omega⟩ =
        sat (outputOf (mixed s) r (mixed s).mix.tonePhase ⟨l.val, by omega⟩) := by
      rw [(framed_frame (mixed s) ((mixed s).outputs r)).2.1]
      exact (tget_tmake _ _).trans (congrArg Prod.fst (outputs_eq (mixed s) r _))
    have self : SameSources (mixed s) (mixed s) := ⟨rfl, rfl, rfl, rfl, rfl, rfl, rfl⟩
    have equal := self.lineOutput (rx := rx') (rx' := rx) (i := ⟨l.val, by omega⟩) l.isLt (fun c other => by
      refine inputOf_of_channel (mixed s) (same _ _ fun e => other (Fin.ext ?_))
      simp only at e
      exact (Nat.div_add_mod' c.val 8).symm.trans e) (mixed s).mix.tonePhase
    rw [out, out, equal]

end Sys2Proof.Proofs.FrameOutputs


namespace Sys2Proof.Proofs.FrameObligations

open Sys2Proof Sys2Proof.Machine Sys2Proof.Safety Sys2Proof.Proofs.Courses Sys2Proof.Proofs.Effects Sys2Proof.Proofs.Outputs
  Sys2Proof.Proofs.PendingGroups Sys2Proof.Proofs.FrameEvents Sys2Proof.Proofs.FrameOutputs
  Sys2Proof.Proofs.OwnershipTasks

/-! ## Ramps and tone -/

/-- The ramps of a bank whose currents are those of `m`: every coefficient stepped toward its own target (R32). -/
theorem stepRamps_stepped (m n : MixEngine) (sound : SameSound m n) :
    (∀ c b, tget (tget n.stepRamps.cells c) b =
      ⟨(tget (tget n.cells c) b).target, stepped (tget (tget m.cells c) b).current (tget (tget n.cells c) b).target⟩) ∧
    ∀ l, tget n.stepRamps.trim l = ⟨(tget n.trim l).target, stepped (tget m.trim l).current (tget n.trim l).target⟩ := by
  obtain ⟨cells, lines, -⟩ := sound
  refine ⟨fun c b => ?_, fun l => ?_⟩
  · simp only [MixEngine.stepRamps, tget_tmake, Ramp.step_spec, cells]
  · simp only [MixEngine.stepRamps, tget_tmake, Ramp.step_spec, (lines l).1]

/-- The cells and trims of a frame event: aimed by the groups, then stepped (R38, R32). -/
theorem mixed_ramps (s : State) :
    (∀ c b, tget (tget (mixed s).mix.cells c) b =
      ⟨(lastWrite (allActions s) (cellWrite c b)).getD (tget (tget s.mix.cells c) b).target,
        stepped (tget (tget s.mix.cells c) b).current
          ((lastWrite (allActions s) (cellWrite c b)).getD (tget (tget s.mix.cells c) b).target)⟩) ∧
    (∀ l, tget (mixed s).mix.storedTrim l = (lastWrite (allActions s) (trimWrite l)).getD (tget s.mix.storedTrim l)) ∧
    ∀ l, (tget (mixed s).mix.trim l).target = (lastWrite (allActions s) (trimWrite l)).elim (tget s.mix.trim l).target
        (fun v => v * tget s.mix.trimDuck l / 32768) ∧
      (tget (mixed s).mix.trim l).current = stepped (tget s.mix.trim l).current (tget (mixed s).mix.trim l).target := by
  obtain ⟨mix, -⟩ := mixed_mix s
  obtain ⟨cells, trims⟩ := stepRamps_stepped s.mix _ (SameSound.actions (allActions s) s.mix)
  have cell := foldl_actionOnMix_cell (allActions s) s.mix
  have trim := foldl_actionOnMix_trim (allActions s) s.mix
  generalize (allActions s).foldl (fun m a => actionOnMix m a.action) s.mix = m at mix cells trims cell trim
  rw [mix]
  refine ⟨fun c b => ?_, fun l => (trim l).1, fun l => ?_⟩
  · rw [← cell]
    exact cells c b
  · dsimp only
    rw [trims]
    exact ⟨(trim l).2, rfl⟩

/-- Without a pending group there is no action. -/
theorem allActions_nil {s : State} (none : ∀ p, tget s.mix.staging p = none) : allActions s = [] := by
  simp [allActions, pendingActions, none]

/-- Two Notice Units alike but for their unread views are alike once they have the same views and levels. -/
theorem withViews_eq {m n : NoticeUnit} (h : { m with unreadView := tall false } = { n with unreadView := tall false })
    (v x : Table 4 Bool) : { m with unreadView := v, line := x } = { n with unreadView := v, line := x } :=
  congrArg (fun k : NoticeUnit => { k with unreadView := v, line := x }) h

/-- Settles O44: the groups aim, the ramps step, and the other parts leave both. -/
theorem frameEventStepsRampsAndTone : Obligations.FrameEventStepsRampsAndTone := by
  refine ⟨fun rx s running => ⟨_, frameEvent_eq running rx, ?_⟩, fun rx s idle => frameEvent_idle idle rx⟩
  obtain ⟨lines, mix, cue, -, clock, free, pending, -, -⟩ := framed_frame (mixed s) ((mixed s).outputs rx)
  obtain ⟨notice, follow, freeze⟩ := framed_notice (mixed s) ((mixed s).outputs rx)
  generalize framed (mixed s) ((mixed s).outputs rx) = t at *
  obtain ⟨owners, mem, valid, -, -, clock1, ports1, notice1, free1, pending1⟩ := mixed_frame s
  obtain ⟨cells, stored, trims⟩ := mixed_ramps s
  obtain ⟨phase, duck, last, source, gain, level⟩ := mixed_kept s
  have line := mixed_line s
  obtain ⟨-, staging⟩ := mixed_mix s
  have steady := expireOverdue_steady s
  generalize mixed s = u at *
  rw [mix]
  dsimp only
  refine ⟨fun c b => by rw [cells], fun l => ⟨(trims l).2, by rw [level, Ramp.step_spec], by rw [level, Ramp.step_spec]⟩,
    by rw [gain, Ramp.step_spec], by rw [phase], duck, last, source, fun quiet => ?_, by rw [lines, owners],
    by rw [cue, mem], by rw [cue, valid], by rw [clock, clock1]; rfl, by rw [freeze, ports1]; exact steady.freeze, ?_, follow,
    free.trans free1, pending.trans pending1⟩
  · have noActions := allActions_nil quiet
    rw [noActions] at cells stored trims line
    refine ⟨fun c b => by rw [cells]; rfl, table_ext stored, fun l => (trims l).1, ?_, fun l => ?_⟩
    · exact table_ext fun p => (staging p).trans (quiet p).symm
    · rw [line_congr lines, line]
      rfl
  · rw [notice1] at notice
    exact notice.trans (withViews_eq steady.notice _ _)

/-! ## Groups and timers -/

/-- The model's timers in the words of the statements (R3). -/
theorem tick_eq (x : TimeLeft) : x.tick = frameLess x := by cases x <;> rfl

theorem playerTick_eq (x : PlayerState) : x.tick = playerFrameLess x := by
  cases x with
  | awaiting t l c m => simp only [PlayerState.tick, playerFrameLess, tick_eq]
  | _ => rfl

/-- Settles O46: with nothing overdue the timers go down, then the groups act. -/
theorem frameEventAppliesGroupsAndTimers : Obligations.FrameEventAppliesGroupsAndTimers := by
  intro rx s running quiet g
  refine ⟨_, frameEvent_eq running rx, ?_⟩
  have actions : g = allActions s := rfl
  obtain ⟨lines, mix, cue, players, -⟩ := framed_frame (mixed s) ((mixed s).outputs rx)
  generalize framed (mixed s) ((mixed s).outputs rx) = t at *
  obtain ⟨-, -, -, loaders, -⟩ := mixed_frame s
  obtain ⟨cells, stored, trims⟩ := mixed_ramps s
  obtain ⟨-, staging⟩ := mixed_mix s
  have line := mixed_line s
  have player := mixed_player s
  generalize mixed s = u at *
  rw [expireOverdue_eq quiet] at line player loaders
  clear_value g
  subst actions
  rw [mix]
  dsimp only
  refine ⟨fun c b => by rw [cells], fun l => ⟨stored l, ?_⟩, fun l => ?_, staging, fun q => ?_, fun q => ?_⟩
  · rw [(trims l).1]
    cases lastWrite (allActions s) (trimWrite l) <;> rfl
  · rw [line_congr lines, line, foldl_actionOnLine_writes]
    refine ⟨?_, fun q => ?_⟩
    · cases lastWrite (allActions s) (busWrite l) with
      | none => rfl
      | some bus => cases bus <;> rfl
    · refine (tget_tmake _ q).trans ?_
      cases tget (s.line l).waiters q with
      | none => rfl
      | some x => exact congrArg some (tick_eq x)
  · rw [player_congr players, player, playerTick_eq]
    cases tget s.mix.staging q <;> rfl
  · rw [loader_congr cue, loaders]

/-! ## Meters and capture (part 6 of R9) -/

/-- Without a waiting capture there is none (R157). -/
theorem capture_none {s : State} (quiet : ∀ p, tget s.meter.waiting p = false) : s.capture = s := by
  have noWinner : s.captureWinner = none := List.find?_eq_none.2 fun p _ => by simp [quiet p]
  have captured := capture_spec s
  rw [noWinner] at captured
  exact captured

/-- The capture of the lowest-numbered waiting port (R159, R160). -/
theorem capture_some {s : State} {p : Port} (first : tget s.meter.waiting p = true)
    (before : ∀ q, q < p → tget s.meter.waiting q = false) :
    s.capture.meter = { live := tall ⟨0, 0⟩, buffer := some ⟨s.meter.live, p, 48000⟩, waiting := tall false } ∧
    ∀ q, s.capture.port q = if tget s.meter.waiting q = true then delivered (s.port q)
      (if q = p then ends .done .none s.meter.clipped else ends .ended .locked p.val) else s.port q := by
  have winner : s.captureWinner = some p := find_finRange first before
  have captured := capture_spec s
  rw [winner] at captured
  obtain ⟨meter, ports, -⟩ := captured
  exact ⟨meter, ports⟩

/-- The state whose meters have taken the report, before the capture (R157). -/
def reported (s : State) (o : Table 32 (Int × Bool)) : State :=
  (transmitted s o).withMeter { s.meter with
    live := tmake fun i => (tget s.meter.live i).report (tget o i).1.natAbs (tget o i).2 }

/-- Part 6 is the report and the capture. -/
theorem framed_captured (s : State) (o : Table 32 (Int × Bool)) :
    (framed s o).meter = (reported s o).capture.meter ∧ (framed s o).ports = (reported s o).capture.ports := by
  obtain ⟨-, -, -, -, -, -, -, meter, ports⟩ := framed_frame s o
  exact ⟨meter, ports⟩

/-- A meter that takes the report of an output: its magnitude, and its clip mark where saturation changed it (R157, R27). -/
theorem report_eq (m : Meter) (v : Int) :
    m.report (satClip v).1.natAbs (satClip v).2 =
      ⟨max m.peak (saturated v).natAbs, if saturated v = v then m.clips else min (m.clips + 1) 65535⟩ := by
  rw [← sat_eq]
  by_cases h : sat v = v <;> simp [Meter.report, satClip, h]

/-- Settles O38: by the capture's winner. -/
theorem frameEventMetersAndCapture : Obligations.FrameEventMetersAndCapture := by
  intro rx s running quiet
  refine ⟨_, frameEvent_eq running rx, ?_⟩
  have out := framed_out (mixed s) rx
  rw [(mixed_kept s).1] at out
  obtain ⟨lines, mix, -⟩ := framed_frame (mixed s) ((mixed s).outputs rx)
  obtain ⟨meter, ports⟩ := framed_captured (mixed s) ((mixed s).outputs rx)
  have sources : SameSources (mixed s) (framed (mixed s) ((mixed s).outputs rx)) :=
    ⟨lines, by rw [mix], by rw [mix], by rw [mix], by rw [mix], by rw [mix], by rw [mix]⟩
  obtain ⟨-, -, -, -, meter1, -, ports1, -⟩ := mixed_frame s
  rw [expireOverdue_eq quiet] at meter1 ports1
  have reports (i : MeterId) : tget (reported (mixed s) ((mixed s).outputs rx)).meter.live i =
      (tget (mixed s).meter.live i).report (tget ((mixed s).outputs rx) i).1.natAbs (tget ((mixed s).outputs rx) i).2 :=
    tget_tmake _ i
  simp only [outputs_eq, report_eq, (mixed_kept s).1, meter1, ← sources.output (rx := rx)] at reports
  have waiting : (reported (mixed s) ((mixed s).outputs rx)).meter.waiting = s.meter.waiting := by
    simp [reported, meter1]
  have buffer : (reported (mixed s) ((mixed s).outputs rx)).meter.buffer =
      s.meter.buffer.map fun k => { k with timer := k.timer - 1 } := by
    simp [reported, meter1]
  have port : (reported (mixed s) ((mixed s).outputs rx)).ports = s.ports := by
    simp [reported, transmitted, ports1]
  generalize framed (mixed s) ((mixed s).outputs rx) = t at *
  generalize reported (mixed s) ((mixed s).outputs rx) = r at *
  intro updated
  have live (i : MeterId) : tget r.meter.live i = updated i := by
    show _ = (⟨max (tget s.meter.live i).peak (tget t.mix.out i).natAbs, _⟩ : Meter)
    rw [out]
    exact reports i
  clear_value updated
  refine ⟨fun none => ?_, fun p first before => ?_⟩
  · rw [meter, ports, capture_none fun p => by rw [waiting]; exact none p]
    exact ⟨live, port, fun p => by rw [waiting]; exact none p, buffer⟩
  · obtain ⟨after, delivers⟩ := capture_some (s := r) (by rw [waiting]; exact first) (by rw [waiting]; exact before)
    rw [meter, after]
    refine ⟨fun i => tget_tall _ i, fun q => tget_tall _ q, ⟨_, rfl, rfl, rfl, live⟩, fun q => ?_⟩
    have clipped : r.meter.clipped = ((List.finRange 32).filter fun i => 0 < (updated i).clips).length := by
      rw [MeterUnit.clipped, List.countP_eq_length_filter]
      simp only [live]
    rw [port_congr ports, delivers, waiting, clipped, port_congr port]
    by_cases e : q = p
    · subst e
      simp [first]
    · simp [e]

end Sys2Proof.Proofs.FrameObligations


namespace Sys2Proof.Proofs.LockAndLoss

open Sys2Proof Sys2Proof.Machine Sys2Proof.Safety Sys2Proof.Proofs.Courses Sys2Proof.Proofs.Effects Sys2Proof.Proofs.Clock

/-! ## The flag of a lock and of a loss (R148, R169) -/

/-- A lock flags where it takes a running generator out of HOLDOVER. -/
theorem lockReference_flag (s : State) (r : RefId) :
    (s.lockReference r).notice.refChange =
      if r = RefId.int ∧ (!s.clock.running) = true then s.notice.refChange
      else if r = s.clock.selected ∧ s.clock.generator = .holdover ∧ s.clock.running = true then true
      else s.notice.refChange := by
  rw [lockReference_eq]
  by_cases first : r = RefId.int ∧ (!s.clock.running) = true
  · rw [if_pos first, if_pos first]
    rfl
  · rw [if_neg first, if_neg first]
    by_cases back : r = s.clock.selected ∧ s.clock.generator = .holdover ∧ s.clock.running = true
    · rw [if_pos back, if_pos back]
      rfl
    · rw [if_neg back, if_neg back]
      rfl

/-- A loss flags where it puts a following generator in HOLDOVER. -/
theorem loseReference_flag (s : State) (r : RefId) :
    (s.loseReference r).notice.refChange =
      if r = s.clock.selected ∧ s.clock.generator = .following then true else s.notice.refChange := by
  rw [loseReference_eq]
  by_cases follows : r = s.clock.selected ∧ s.clock.generator = .following
  · rw [if_pos follows, if_pos follows]
    rfl
  · rw [if_neg follows, if_neg follows]
    rfl

/-- A lock leaves the selection and LNK's markers. -/
theorem lockReference_markers (s : State) (r : RefId) :
    (s.lockReference r).clock.selected = s.clock.selected ∧ (s.lockReference r).clock.marker = s.clock.marker ∧
    (s.lockReference r).clock.sinceMarker = s.clock.sinceMarker ∧ (s.lockReference r).clock.missed = s.clock.missed := by
  rw [lockReference_clock]
  (repeat' split) <;> exact ⟨rfl, rfl, rfl, rfl⟩

/-- Notice lines driven where the reference-change flag alone moved. -/
theorem driven_of_flag {s u : State} (flag : u.notice = { s.notice with refChange := u.notice.refChange }) :
    u.driveNotices.notice =
      { s.notice with refChange := u.driveNotices.notice.refChange, line := u.driveNotices.notice.line } ∧
    NoticeLinesFollow u.driveNotices := by
  obtain ⟨driven, follow⟩ := State.driveNotices_spec u
  have same : u.driveNotices.notice.refChange = u.notice.refChange := by rw [driven]
  refine ⟨?_, follow⟩
  rw [same]
  exact driven.trans (congrArg (fun n : NoticeUnit => { n with line := u.driveNotices.notice.line }) flag)

/-- Settles O41: the generator's case of each. -/
theorem lockAndLossMoveTheGenerator : Obligations.LockAndLossMoveTheGenerator := by
  refine ⟨fun r s due first => ?_, fun r s due => ?_, fun r s early => congrArg Host.Outcome.next (if_neg (by simp [early])),
    fun r s early => congrArg Host.Outcome.next (if_neg (by simp [early]))⟩
  · refine ⟨_, congrArg Host.Outcome.next (if_pos due), ?_⟩
    obtain ⟨notice, follow⟩ := driven_of_flag (lockReference_notice s r)
    have refs := lockReference_ref s r
    have clock := lockReference_clock s r
    have flag := lockReference_flag s r
    obtain ⟨selected1, marker, since, missed⟩ := lockReference_markers s r
    have frame := State.lockReference_frame s r
    generalize s.lockReference r = u at *
    obtain ⟨lines, mix, cue, players, meter, ports, free, pending⟩ := frame
    have record : u.ref r = { s.ref r with state := .locked, count := 0, reached := false } := (refs r).trans (if_pos rfl)
    refine ⟨⟨lines, mix, cue, players, meter, ports, pending⟩, free, follow, fun k hk => (refs k).trans (if_neg hk), record, selected1, marker, since, missed, notice, ?_⟩
    by_cases starts : r.val = 0 ∧ s.clock.running = false
    · have int : r = RefId.int ∧ (!s.clock.running) = true := ⟨Fin.ext starts.1, by simp [starts.2]⟩
      have selected : s.clock.selected = r := Fin.ext ((first starts.2).trans starts.1.symm)
      rw [if_pos int] at clock flag
      have locked : (u.ref s.clock.selected).state = .locked := by rw [selected, record]
      rw [if_pos locked] at clock
      rw [if_pos starts]
      have rate := congrArg FrameClock.rate clock
      exact ⟨congrArg FrameClock.running clock, congrArg FrameClock.generator clock, rate, congrArg FrameClock.pull clock, flag⟩
    · have int : ¬ (r = RefId.int ∧ (!s.clock.running) = true) := fun h =>
        starts ⟨congrArg Fin.val h.1, by simpa using h.2⟩
      rw [if_neg int] at clock flag
      rw [if_neg starts]
      by_cases back : r = s.clock.selected ∧ s.clock.generator = .holdover ∧ s.clock.running = true
      · rw [if_pos back] at clock flag
        rw [if_pos back]
        have rate := congrArg FrameClock.rate clock
        exact ⟨(congrArg FrameClock.running clock).trans back.2.2, congrArg FrameClock.generator clock, rate,
          congrArg FrameClock.pull clock, flag⟩
      · rw [if_neg back] at clock flag
        rw [if_neg back]
        exact ⟨clock, flag⟩
  · refine ⟨_, congrArg Host.Outcome.next (if_pos due), ?_⟩
    obtain ⟨notice, follow⟩ := driven_of_flag (loseReference_notice s r)
    have refs := loseReference_ref s r
    have clock := loseReference_clock s r
    have flag := loseReference_flag s r
    have frame := State.loseReference_frame s r
    generalize s.loseReference r = u at *
    obtain ⟨lines, mix, cue, players, meter, ports, free, pending⟩ := frame
    refine ⟨⟨lines, mix, cue, players, meter, ports, pending⟩, free, follow, fun k hk => (refs k).trans (if_neg hk),
      (refs r).trans (if_pos rfl), notice, ?_⟩
    by_cases follows : r = s.clock.selected ∧ s.clock.generator = .following
    · rw [if_pos follows] at clock flag ⊢
      exact ⟨clock, flag⟩
    · rw [if_neg follows] at clock flag ⊢
      exact ⟨clock, flag⟩

end Sys2Proof.Proofs.LockAndLoss


namespace Sys2Proof.Proofs.Periods

open Sys2Proof Sys2Proof.Machine Sys2Proof.Safety Sys2Proof.Proofs.Courses Sys2Proof.Proofs.Effects Sys2Proof.Proofs.Clock
  Sys2Proof.Proofs.CueSteps

/-! ## The levels of the notice lines

They are read by no reference event, so it does not matter whether they were driven in between. -/

/-- The state with other levels of the notice lines. -/
def withLevels (s : State) (x : Table 4 Bool) : State := s.withNotice { s.notice with line := x }

theorem driveNotices_levels (s : State) : s.driveNotices = withLevels s s.driveNotices.notice.line := rfl

theorem withLevels_twice (s : State) (x y : Table 4 Bool) : withLevels (withLevels s x) y = withLevels s y := rfl

theorem lockReference_withLevels (s : State) (r : RefId) (x : Table 4 Bool) :
    (withLevels s x).lockReference r = withLevels (s.lockReference r) x := by
  rw [lockReference_eq, lockReference_eq]
  by_cases first : r = RefId.int ∧ (!s.clock.running) = true
  · rw [if_pos first, if_pos (show r = RefId.int ∧ (!(withLevels s x).clock.running) = true from first)]
    rfl
  · rw [if_neg first, if_neg (show ¬ (r = RefId.int ∧ (!(withLevels s x).clock.running) = true) from first)]
    by_cases back : r = s.clock.selected ∧ s.clock.generator = .holdover ∧ s.clock.running = true
    · rw [if_pos back, if_pos (show r = (withLevels s x).clock.selected ∧ (withLevels s x).clock.generator = .holdover ∧
        (withLevels s x).clock.running = true from back)]
      rfl
    · rw [if_neg back, if_neg (show ¬ (r = (withLevels s x).clock.selected ∧ (withLevels s x).clock.generator = .holdover ∧
        (withLevels s x).clock.running = true) from back)]
      rfl

theorem loseReference_withLevels (s : State) (r : RefId) (x : Table 4 Bool) :
    (withLevels s x).loseReference r = withLevels (s.loseReference r) x := by
  rw [loseReference_eq, loseReference_eq]
  by_cases follows : r = s.clock.selected ∧ s.clock.generator = .following
  · rw [if_pos follows,
      if_pos (show r = (withLevels s x).clock.selected ∧ (withLevels s x).clock.generator = .following from follows)]
    rfl
  · rw [if_neg follows,
      if_neg (show ¬ (r = (withLevels s x).clock.selected ∧ (withLevels s x).clock.generator = .following) from follows)]
    rfl

theorem takeLockOrLoss_withLevels (s : State) (r : RefId) (x : Table 4 Bool) :
    (withLevels s x).takeLockOrLoss r = withLevels (s.takeLockOrLoss r) x := by
  unfold State.takeLockOrLoss
  rw [lockReference_withLevels, loseReference_withLevels, show (withLevels s x).lockDue r = s.lockDue r from rfl,
    show (withLevels s x).lossDue r = s.lossDue r from rfl]
  (repeat' split) <;> rfl

theorem missed_withLevels (s : State) (r : RefId) (x : Table 4 Bool) :
    (withLevels s x).missed r = withLevels (s.missed r) x := by
  unfold State.missed
  rw [takeLockOrLoss_withLevels]
  dsimp only
  split <;> rfl

/-! ## The records of a lock or loss still due -/

/-- A lock or loss still due leaves whether the reference is enabled, its interval, its length, LNK's markers and, but for INT, the
generator's rate. -/
theorem takeLockOrLoss_kept (s : State) (r : RefId) :
    ((s.takeLockOrLoss r).ref r).armed = (s.ref r).armed ∧ ((s.takeLockOrLoss r).ref r).length = (s.ref r).length ∧
    (((s.takeLockOrLoss r).ref r).state = .off ↔ (s.ref r).state = .off) ∧
    (s.takeLockOrLoss r).clock.marker = s.clock.marker ∧ (s.takeLockOrLoss r).clock.missed = s.clock.missed ∧
    (r ≠ RefId.int → (s.takeLockOrLoss r).clock.rate = s.clock.rate) := by
  unfold State.takeLockOrLoss
  split
  · rename_i due
    simp only [State.lockDue, Bool.and_eq_true, beq_iff_eq] at due
    rw [lockReference_ref, lockReference_clock, if_pos rfl]
    refine ⟨rfl, rfl, by simp [due.2], ?_, ?_, fun other => ?_⟩
    · (repeat' split) <;> rfl
    · (repeat' split) <;> rfl
    · simp only [other, false_and, if_false]
      split <;> rfl
  · split
    · rename_i due
      simp only [State.lossDue, Bool.and_eq_true, beq_iff_eq] at due
      rw [loseReference_ref, loseReference_clock, if_pos rfl]
      refine ⟨rfl, rfl, by simp [due.2], ?_, ?_, fun _ => ?_⟩ <;> split <;> rfl
    · exact ⟨rfl, rfl, Iff.rfl, rfl, rfl, fun _ => rfl⟩

/-- Where neither is due nothing is taken. -/
theorem takeLockOrLoss_idle {s : State} {r : RefId} (idle : (s.ref r).reached = false) : s.takeLockOrLoss r = s := by
  simp [State.takeLockOrLoss, State.lockDue, State.lossDue, idle]

/-! ## What a period makes of a record (R168) -/

/-- A faulty period leaves state, interval and length. -/
theorem faulty_kept (x : RefRec) : x.faulty.state = x.state ∧ x.faulty.armed = x.armed ∧ x.faulty.length = x.length := by
  unfold RefRec.faulty RefRec.countTo
  (repeat' split) <;> exact ⟨rfl, rfl, rfl⟩

/-- A sound period leaves state and interval. -/
theorem sound_kept (x : RefRec) (r : RefId) : (x.sound r).state = x.state ∧ (x.sound r).armed = x.armed := by
  unfold RefRec.sound RefRec.countTo
  (repeat' split) <;> exact ⟨rfl, rfl⟩

/-- The counts after a faulty period of an enabled reference. -/
theorem faulty_counted {x : RefRec} (enabled : x.state ≠ .off) (reached : x.reached = false) :
    if x.state = .acquiring then x.faulty.count = 0 ∧ x.faulty.reached = false
    else if x.count + 1 < 8 then x.faulty.count = x.count + 1 ∧ x.faulty.reached = false
    else x.faulty.count = x.count ∧ x.faulty.reached = true := by
  cases state : x.state with
  | off => exact absurd state enabled
  | acquiring => simp [RefRec.faulty, state, reached]
  | locked => by_cases room : x.count + 1 < 8 <;> simp [RefRec.faulty, RefRec.countTo, state, reached, room]

/-- The counts after a sound period of an enabled reference. -/
theorem sound_counted {x : RefRec} (r : RefId) (enabled : x.state ≠ .off) (reached : x.reached = false) :
    if x.state = .locked then (x.sound r).count = 0 ∧ (x.sound r).reached = false
    else if x.count + 1 < lockPeriods r then (x.sound r).count = x.count + 1 ∧ (x.sound r).reached = false
    else (x.sound r).count = x.count ∧ (x.sound r).reached = true := by
  have threshold : lockThreshold r = lockPeriods r := if_congr Fin.ext_iff rfl rfl
  cases state : x.state with
  | off => exact absurd state enabled
  | locked => simp [RefRec.sound, state, reached]
  | acquiring =>
    by_cases room : x.count + 1 < lockPeriods r <;> simp [RefRec.sound, RefRec.countTo, state, reached, threshold, room]

/-- The soundness of an interval in the words of the statements (R167). -/
theorem soundLength_eq (r : RefId) (length : Nat) : soundLength r length = soundInterval r length := by
  have int : (r == RefId.int) = (r.val == 0) := by
    revert r
    decide
  rw [soundLength, soundInterval, int]
  rfl

/-! ## Missing periods of LNK -/

/-- A missing period, after a lock or loss still due: a faulty one, its interval closed, counted for LNK's markers. -/
theorem missed_spec (s : State) (r : RefId) :
    (∀ k, (s.missed r).ref k = if k = r then { ((s.takeLockOrLoss r).ref r).faulty with armed := false }
      else (s.takeLockOrLoss r).ref k) ∧
    (s.missed r).clock = { (s.takeLockOrLoss r).clock with
      refs := (s.missed r).clock.refs
      missed := if r = RefId.lnk then (s.takeLockOrLoss r).clock.missed + 1 else (s.takeLockOrLoss r).clock.missed } := by
  unfold State.missed
  dsimp only
  generalize s.takeLockOrLoss r = u
  by_cases lnk : r = RefId.lnk
  · simp only [if_pos lnk]
    exact State.setRef_spec (u.withClock { u.clock with missed := u.clock.missed + 1 }) r _
  · simp only [if_neg lnk]
    exact State.setRef_spec u r _

/-- A missing period closes the interval, and leaves whether the reference is enabled, its length and, but for INT, the rate. -/
theorem missed_kept (s : State) {r : RefId} (other : r ≠ RefId.int) :
    ((s.missed r).ref r).armed = false ∧ ((s.missed r).ref r).length = (s.ref r).length ∧
    (((s.missed r).ref r).state = .off ↔ (s.ref r).state = .off) ∧ (s.missed r).clock.marker = s.clock.marker ∧
    (s.missed r).clock.rate = s.clock.rate := by
  obtain ⟨-, length, off, marker, -, rate⟩ := takeLockOrLoss_kept s r
  obtain ⟨state, -, same⟩ := faulty_kept ((s.takeLockOrLoss r).ref r)
  obtain ⟨refs, clock⟩ := missed_spec s r
  rw [refs, if_pos rfl]
  have marker1 := congrArg FrameClock.marker clock
  have rate1 := congrArg FrameClock.rate clock
  exact ⟨rfl, same.trans length, by rw [← off, ← state], marker1.trans marker, rate1.trans (rate other)⟩

/-- Missing periods of LNK, where there is one: the interval is closed, and nothing beside counts and the generator's state moves. -/
theorem missMany_kept (n : Nat) (s : State) :
    (0 < n ∨ (s.ref 3).armed = false → ((s.missMany n).ref 3).armed = false) ∧
    ((s.missMany n).ref 3).length = (s.ref 3).length ∧ (((s.missMany n).ref 3).state = .off ↔ (s.ref 3).state = .off) ∧
    (s.missMany n).clock.marker = s.clock.marker ∧ (s.missMany n).clock.rate = s.clock.rate := by
  induction n generalizing s with
  | zero => exact ⟨fun h => h.resolve_left (Nat.lt_irrefl 0), rfl, Iff.rfl, rfl, rfl⟩
  | succ n ih =>
    obtain ⟨armed, length, off, marker, rate⟩ := missed_kept s (r := RefId.lnk) (by decide)
    obtain ⟨armed1, length1, off1, marker1, rate1⟩ := ih (s.missed RefId.lnk)
    exact ⟨fun _ => armed1 (.inr armed), length1.trans length, off1.trans off, marker1.trans marker, rate1.trans rate⟩

/-- The MISSING_PERIOD commands of LNK take its missing periods, and drive the notice lines in between. -/
theorem missMany_taken (n : Nat) {s : State} (enabled : (s.ref 3).state ≠ .off) (due : n ≤ missingLeft s) :
    ∃ x, MissingTaken n s (withLevels (s.missMany n) x) := by
  induction n generalizing s with
  | zero => exact ⟨s.notice.line, rfl⟩
  | succ n ih =>
    obtain ⟨-, -, off, -⟩ := missed_kept s (r := RefId.lnk) (by decide)
    have left : missingLeft (s.missed RefId.lnk) = missingLeft s - 1 := State.missed_missingDue s
    obtain ⟨x, taken⟩ := ih (s := (s.missed RefId.lnk).driveNotices) (fun h => enabled (off.1 h))
      (show n ≤ missingLeft (s.missed RefId.lnk) by omega)
    have first : exec (.missingPeriod 3) s = .next (s.missed RefId.lnk).driveNotices := by
      refine congrArg Host.Outcome.next (if_pos ?_)
      have positive : 0 < s.missingDue := by
        rw [State.missingDue_spec]
        omega
      have other : (3 : RefId) ≠ RefId.int := by decide
      simp [State.missingTaken, enabled, positive, other]
    refine ⟨x, _, first, ?_⟩
    have levels : ∀ (m : Nat) (u : State) (y : Table 4 Bool), (withLevels u y).missMany m = withLevels (u.missMany m) y := by
      intro m
      induction m with
      | zero => exact fun _ _ => rfl
      | succ m ih => exact fun u y => by rw [State.missMany, State.missMany, missed_withLevels, ih]
    rw [driveNotices_levels, levels, withLevels_twice, ← driveNotices_levels] at taken
    exact taken

/-! ## Arrivals (R167) -/

/-- LNK's marker taken with the periods counted before it; no other reference has one. -/
def markerCleared (s : State) (r : RefId) : State :=
  if r = RefId.lnk then s.withClock { s.clock with marker := none, missed := 0 } else s

/-- An arrival once everything due before it has been taken: it opens an interval, or ends one of this length. -/
def arrived (s : State) (r : RefId) (length : Nat) : State :=
  if !(s.ref r).armed then s.setRef r { s.ref r with armed := true }
  else if soundLength r length then s.soundPeriod r length
  else s.setRef r (s.ref r).faulty

/-- An arrival takes first what is due. -/
theorem arrival_eq (s : State) (r : RefId) (n : Nat) :
    s.arrival r n = arrived (markerCleared ((if r = RefId.lnk then s.missMany s.missingDue else s).takeLockOrLoss r) r) r
      (measuredLength s r n) := by
  rw [← State.measured_spec]
  rfl

/-- The clearing of a marker touches LNK's marker and its count, and nothing else. -/
theorem markerCleared_spec (s : State) (r : RefId) :
    (markerCleared s r).clock = (if r.val = 3 then { s.clock with marker := none, missed := 0 } else s.clock) ∧
    ClockAside s (markerCleared s r) ∧ (markerCleared s r).notice = s.notice ∧ (markerCleared s r).free = s.free ∧
    ∀ k, (markerCleared s r).ref k = s.ref k := by
  by_cases lnk : r = RefId.lnk
  · subst lnk
    exact ⟨rfl, ⟨rfl, rfl, rfl, rfl, rfl, rfl, rfl⟩, rfl, rfl, fun _ => rfl⟩
  · have other : ¬ r.val = 3 := fun e => lnk (Fin.ext e)
    rw [markerCleared, if_neg lnk, if_neg other]
    exact ⟨rfl, ⟨rfl, rfl, rfl, rfl, rfl, rfl, rfl⟩, rfl, rfl, fun _ => rfl⟩

/-- An arrival with nothing due before it. -/
theorem referencePeriod_taken {s : State} {r : RefId} (enabled : (s.ref r).state ≠ .off) (idle : (s.ref r).reached = false)
    (marker : r.val = 3 → s.clock.marker ≠ none ∧ missingLeft s = 0) (n : Nat) :
    exec (.referencePeriod r n) s = .next (arrived (markerCleared s r) r (measuredLength s r n)).driveNotices := by
  have taken : s.arrivalTaken r = true := by
    by_cases lnk : r = RefId.lnk
    · have some := (marker (congrArg Fin.val lnk)).1
      subst lnk
      simp [State.arrivalTaken, enabled, Option.isSome_iff_ne_none, some]
    · simp [State.arrivalTaken, enabled, lnk]
  have first : (if r = RefId.lnk then s.missMany s.missingDue else s) = s := by
    split
    · rename_i lnk
      rw [State.missingDue_spec, (marker (congrArg Fin.val lnk)).2]
      rfl
    · rfl
  refine congrArg Host.Outcome.next ((if_pos taken).trans ?_)
  rw [arrival_eq, first, takeLockOrLoss_idle idle]

/-- A record written, and nothing else of the clock or of the part. -/
theorem setRef_aside (s : State) (r : RefId) (x : RefRec) :
    ClockAside s (s.setRef r x) ∧ (s.setRef r x).notice = s.notice ∧ (s.setRef r x).free = s.free :=
  ⟨⟨rfl, rfl, rfl, rfl, rfl, rfl, rfl⟩, rfl, rfl⟩

/-- A sound period: its record, and the generator that follows the reference (R168, R169, R170). -/
theorem soundPeriod_spec (s : State) (r : RefId) (length : Nat) :
    (∀ k, (s.soundPeriod r length).ref k = if k = r then { (s.ref r).sound r with length := length } else s.ref k) ∧
    (s.soundPeriod r length).clock = { s.clock with
      refs := (s.soundPeriod r length).clock.refs, rate := (s.soundPeriod r length).clock.rate } ∧
    if r = s.clock.selected ∧ s.clock.generator = .following then
      if s.clock.pull ≤ 2 then
        (s.soundPeriod r length).clock.rate = some length ∧ (s.soundPeriod r length).free = s.free
      else ∃ rate, (s.soundPeriod r length).clock.rate = some rate ∧
        min (s.clock.rate.getD length) length ≤ rate ∧ rate ≤ max (s.clock.rate.getD length) length
    else (s.soundPeriod r length).clock.rate = s.clock.rate ∧ (s.soundPeriod r length).free = s.free := by
  obtain ⟨refs, clock⟩ := State.setRef_spec s r { (s.ref r).sound r with length := length }
  have free := (setRef_aside s r { (s.ref r).sound r with length := length }).2.2
  unfold State.soundPeriod
  generalize s.setRef r { (s.ref r).sound r with length := length } = u at *
  obtain ⟨follow, moved⟩ := State.followPeriod_spec u r
  have own : (u.ref r).length = length := by rw [refs, if_pos rfl]
  have selected := congrArg FrameClock.selected clock
  have generator := congrArg FrameClock.generator clock
  have pull := congrArg FrameClock.pull clock
  have rate := congrArg FrameClock.rate clock
  dsimp only at selected generator pull rate
  rw [own, selected, generator, pull, rate] at moved
  generalize u.followPeriod r = t at *
  have same (k : RefId) : t.ref k = u.ref k := by rw [State.ref, State.ref, follow]
  refine ⟨fun k => (same k).trans (refs k), ?_, ?_⟩
  · have refs1 := congrArg FrameClock.refs follow
    rw [refs1]
    exact follow.trans (congrArg (fun c : FrameClock => { c with rate := t.clock.rate }) clock)
  · by_cases follows : r = s.clock.selected ∧ s.clock.generator = .following
    · rw [if_pos follows] at moved ⊢
      rw [← free]
      exact moved
    · rw [if_neg follows] at moved ⊢
      rw [moved]
      exact ⟨rate, free⟩

/-- The clock of a record written after LNK's marker is cleared (log 9). -/
theorem setRef_cleared (s : State) (r : RefId) (x : RefRec) :
    (∀ k, ((markerCleared s r).setRef r x).ref k = if k = r then x else s.ref k) ∧
    ClockAside s ((markerCleared s r).setRef r x) ∧ ((markerCleared s r).setRef r x).notice = s.notice ∧
    ((markerCleared s r).setRef r x).free = s.free ∧
    ((markerCleared s r).setRef r x).clock = if r.val = 3
      then { s.clock with refs := ((markerCleared s r).setRef r x).clock.refs, marker := none, missed := 0 }
      else { s.clock with refs := ((markerCleared s r).setRef r x).clock.refs } := by
  obtain ⟨clock1, aside, notice, free, ref1⟩ := markerCleared_spec s r
  obtain ⟨refs, clock⟩ := State.setRef_spec (markerCleared s r) r x
  refine ⟨fun k => (refs k).trans (by rw [ref1]), aside, notice, free, ?_⟩
  refine (clock.trans (congrArg (fun c : FrameClock => { c with
    refs := ((markerCleared s r).setRef r x).clock.refs }) clock1)).trans ?_
  split <;> rfl

/-! ## The obligation -/

/-- A sound period (R167 to R170). -/
theorem soundPeriod_taken {r : RefId} {length : Nat} {s : State} (ends : PeriodEnds s r)
    (sound : soundInterval r (measuredLength s r length) = true) :
    ∃ t, exec (.referencePeriod r length) s = .next t ∧ OnlyCounted s t r ∧ ClockAside s t ∧ NoticeDriven s t ∧
      (t.ref r).armed = true ∧ (t.ref r).length = measuredLength s r length ∧
      (if (s.ref r).state = .locked then (t.ref r).count = 0 ∧ (t.ref r).reached = false
        else if (s.ref r).count + 1 < lockPeriods r then
          (t.ref r).count = (s.ref r).count + 1 ∧ (t.ref r).reached = false
        else (t.ref r).count = (s.ref r).count ∧ (t.ref r).reached = true) ∧
      t.clock.selected = s.clock.selected ∧ t.clock.generator = s.clock.generator ∧ t.clock.running = s.clock.running ∧
      t.clock.pull = s.clock.pull ∧ t.clock.sinceMarker = s.clock.sinceMarker ∧
      t.clock.marker = (if r.val = 3 then none else s.clock.marker) ∧
      t.clock.missed = (if r.val = 3 then 0 else s.clock.missed) ∧
      (if r = s.clock.selected ∧ s.clock.generator = .following then
          if s.clock.pull ≤ 2 then t.clock.rate = some (measuredLength s r length) ∧ t.free = s.free
          else ∃ rate, t.clock.rate = some rate ∧
            min (s.clock.rate.getD (measuredLength s r length)) (measuredLength s r length) ≤ rate ∧
            rate ≤ max (s.clock.rate.getD (measuredLength s r length)) (measuredLength s r length)
        else t.clock.rate = s.clock.rate ∧ t.free = s.free) := by
  obtain ⟨enabled, armed, idle, marker⟩ := ends
  refine ⟨_, referencePeriod_taken enabled idle marker length, ?_⟩
  generalize measuredLength s r length = n at *
  obtain ⟨clock1, aside1, notice1, free1, ref1⟩ := markerCleared_spec s r
  have period : arrived (markerCleared s r) r n = (markerCleared s r).soundPeriod r n := by
    rw [arrived, ref1, armed, soundLength_eq, sound]
    rfl
  obtain ⟨refs, clock, moved⟩ := soundPeriod_spec (markerCleared s r) r n
  obtain ⟨lines, mix, cue, players, notice, meter, ports, pending⟩ := State.soundPeriod_frame (markerCleared s r) r n
  rw [period]
  generalize (markerCleared s r).soundPeriod r n = t at *
  obtain ⟨lines1, mix1, cue1, players1, meter1, ports1, pending1⟩ := aside1
  have same : (markerCleared s r).clock.selected = s.clock.selected ∧ (markerCleared s r).clock.generator = s.clock.generator ∧
      (markerCleared s r).clock.running = s.clock.running ∧ (markerCleared s r).clock.pull = s.clock.pull ∧
      (markerCleared s r).clock.sinceMarker = s.clock.sinceMarker ∧ (markerCleared s r).clock.rate = s.clock.rate ∧
      (markerCleared s r).clock.marker = (if r.val = 3 then none else s.clock.marker) ∧
      (markerCleared s r).clock.missed = (if r.val = 3 then 0 else s.clock.missed) := by
    rw [clock1]
    split <;> exact ⟨rfl, rfl, rfl, rfl, rfl, rfl, rfl, rfl⟩
  obtain ⟨selected, generator, running, pull, since, rate, marker1, missed1⟩ := same
  rw [selected, generator, pull, rate, free1] at moved
  obtain ⟨state, interval⟩ := sound_kept (s.ref r) r
  have counted := sound_counted r enabled idle
  have record : t.driveNotices.ref r = { (s.ref r).sound r with length := n } := by
    refine (refs r).trans ((if_pos rfl).trans ?_)
    rw [ref1]
  have selected2 := congrArg FrameClock.selected clock
  have generator2 := congrArg FrameClock.generator clock
  have running2 := congrArg FrameClock.running clock
  have pull2 := congrArg FrameClock.pull clock
  have since2 := congrArg FrameClock.sinceMarker clock
  have marker2 := congrArg FrameClock.marker clock
  have missed2 := congrArg FrameClock.missed clock
  rw [record]
  exact ⟨⟨fun k hk => (refs k).trans ((if_neg hk).trans (ref1 k)), by rw [record]; exact state⟩,
    ⟨lines.trans lines1, mix.trans mix1, cue.trans cue1, players.trans players1, meter.trans meter1, ports.trans ports1,
      pending.trans pending1⟩, driven_of_same (notice.trans notice1), interval.trans armed, rfl, counted,
    selected2.trans selected, generator2.trans generator, running2.trans running, pull2.trans pull, since2.trans since,
    marker2.trans marker1, missed2.trans missed1, moved⟩

/-- A faulty period that is not missing (R167, R168). -/
theorem faultyPeriod_taken {r : RefId} {length : Nat} {s : State} (ends : PeriodEnds s r)
    (faulty : soundInterval r (measuredLength s r length) = false) :
    ∃ t, exec (.referencePeriod r length) s = .next t ∧ OnlyCounted s t r ∧ ClockAside s t ∧ NoticeDriven s t ∧
      t.free = s.free ∧ (t.ref r).armed = true ∧ FaultCounted s t r ∧
      t.clock = (if r.val = 3 then { s.clock with refs := t.clock.refs, marker := none, missed := 0 }
        else { s.clock with refs := t.clock.refs }) := by
  obtain ⟨enabled, armed, idle, marker⟩ := ends
  refine ⟨_, referencePeriod_taken enabled idle marker length, ?_⟩
  obtain ⟨-, -, -, -, ref1⟩ := markerCleared_spec s r
  have period : arrived (markerCleared s r) r (measuredLength s r length) = (markerCleared s r).setRef r (s.ref r).faulty := by
    rw [arrived, ref1, armed, soundLength_eq, faulty]
    rfl
  obtain ⟨refs, aside, notice, free, clock⟩ := setRef_cleared s r (s.ref r).faulty
  rw [period]
  generalize (markerCleared s r).setRef r (s.ref r).faulty = t at *
  obtain ⟨state, interval, -⟩ := faulty_kept (s.ref r)
  have counted := faulty_counted enabled idle
  have record : t.driveNotices.ref r = (s.ref r).faulty := (refs r).trans (if_pos rfl)
  refine ⟨⟨fun k hk => (refs k).trans (if_neg hk), by rw [record, state]⟩, aside, driven_of_same notice, free,
    by rw [record, interval, armed], ?_, clock⟩
  rw [FaultCounted, record]
  exact counted

/-- The arrival after a gap opens an interval (R167, log 8). -/
theorem openingPeriod_taken {r : RefId} {s : State} (length : Nat) (enabled : (s.ref r).state ≠ .off)
    (closed : (s.ref r).armed = false) (idle : (s.ref r).reached = false)
    (marker : r.val = 3 → s.clock.marker ≠ none ∧ missingLeft s = 0) :
    ∃ t, exec (.referencePeriod r length) s = .next t ∧ (∀ k, k ≠ r → t.ref k = s.ref k) ∧
      t.ref r = { s.ref r with armed := true } ∧ ClockAside s t ∧ NoticeDriven s t ∧ t.free = s.free ∧
      t.clock = (if r.val = 3 then { s.clock with refs := t.clock.refs, marker := none, missed := 0 }
        else { s.clock with refs := t.clock.refs }) := by
  refine ⟨_, referencePeriod_taken enabled idle marker length, ?_⟩
  obtain ⟨-, -, -, -, ref1⟩ := markerCleared_spec s r
  have period : arrived (markerCleared s r) r (measuredLength s r length) =
      (markerCleared s r).setRef r { s.ref r with armed := true } := by
    rw [arrived, ref1, closed]
    rfl
  obtain ⟨refs, aside, notice, free, clock⟩ := setRef_cleared s r { s.ref r with armed := true }
  rw [period]
  generalize (markerCleared s r).setRef r { s.ref r with armed := true } = t at *
  exact ⟨fun k hk => (refs k).trans (if_neg hk), (refs r).trans (if_pos rfl), aside, driven_of_same notice, free, clock⟩

/-- A missing period with no lock or loss due before it (R167, R168). -/
theorem missingPeriod_taken {r : RefId} {s : State} (other : r.val ≠ 0) (enabled : (s.ref r).state ≠ .off)
    (idle : (s.ref r).reached = false) (due : r.val = 3 → 0 < missingLeft s) :
    ∃ t, exec (.missingPeriod r) s = .next t ∧ OnlyCounted s t r ∧ ClockAside s t ∧ NoticeDriven s t ∧
      t.free = s.free ∧ (t.ref r).armed = false ∧ FaultCounted s t r ∧
      t.clock = (if r.val = 3 then { s.clock with refs := t.clock.refs, missed := s.clock.missed + 1 }
        else { s.clock with refs := t.clock.refs }) := by
  have notInt : r ≠ RefId.int := fun e => other (congrArg Fin.val e)
  have taken : s.missingTaken r = true := by
    by_cases lnk : r = RefId.lnk
    · have positive : 0 < s.missingDue := due (congrArg Fin.val lnk)
      simp [State.missingTaken, enabled, notInt, positive]
    · simp [State.missingTaken, enabled, notInt, lnk]
  refine ⟨_, congrArg Host.Outcome.next (if_pos taken), ?_⟩
  obtain ⟨refs, clock⟩ := missed_spec s r
  have flag : (s.missed r).notice = s.notice := by
    have blocks : (s.missed r).notice = (s.takeLockOrLoss r).notice := by
      unfold State.missed
      dsimp only
      split <;> simp
    rw [blocks, takeLockOrLoss_idle idle]
  obtain ⟨lines, mix, cue, players, meter, ports, free, pending⟩ := State.missed_frame s r
  rw [takeLockOrLoss_idle idle] at refs clock
  generalize s.missed r = t at *
  obtain ⟨state, -, -⟩ := faulty_kept (s.ref r)
  have counted := faulty_counted enabled idle
  have record : t.driveNotices.ref r = { (s.ref r).faulty with armed := false } := (refs r).trans (if_pos rfl)
  refine ⟨⟨fun k hk => (refs k).trans (if_neg hk), by rw [record]; exact state⟩,
    ⟨lines, mix, cue, players, meter, ports, pending⟩, driven_of_same flag, free, by rw [record], ?_, ?_⟩
  · rw [FaultCounted, record]
    exact counted
  · refine clock.trans ?_
    by_cases lnk : r.val = 3
    · have same : r = RefId.lnk := Fin.ext lnk
      rw [if_pos lnk, if_pos same]
      rfl
    · have other : r ≠ RefId.lnk := fun e => lnk (congrArg Fin.val e)
      rw [if_neg lnk, if_neg other]
      rfl

/-- An arrival on a closed interval opens it. -/
theorem arrived_opens {s : State} {r : RefId} (closed : (s.ref r).armed = false) (n : Nat) :
    arrived (markerCleared s r) r n = (markerCleared s r).setRef r { s.ref r with armed := true } := by
  obtain ⟨-, -, -, -, ref1⟩ := markerCleared_spec s r
  rw [arrived, ref1, closed]
  rfl

/-- A marker of LNK that has come is taken. -/
theorem markerArrival_taken {s : State} (enabled : (s.ref 3).state ≠ .off) (marker : s.clock.marker ≠ none) (n : Nat) :
    exec (.referencePeriod 3 n) s = .next (s.arrival 3 n).driveNotices := by
  refine congrArg Host.Outcome.next (if_pos ?_)
  simp [State.arrivalTaken, enabled, Option.isSome_iff_ne_none, marker]

/-- The marker that ends a gap: its missing periods are counted before it, and it opens an interval (R167, log 9). -/
theorem gapPeriod_taken (length : Nat) {s : State} (enabled : (s.ref 3).state ≠ .off) (marker : s.clock.marker ≠ none)
    (due : 0 < missingLeft s) :
    ∃ u t, MissingTaken (missingLeft s) s u ∧ exec (.referencePeriod 3 length) s = .next t ∧
      exec (.referencePeriod 3 length) u = .next t ∧ (u.ref 3).armed = false ∧ missingLeft u = 0 ∧
      (t.ref 3).armed = true ∧ (t.ref 3).length = (s.ref 3).length ∧ t.clock.marker = none ∧ t.clock.missed = 0 ∧
      t.clock.rate = s.clock.rate ∧ t.free = s.free ∧ ClockAside s t := by
  obtain ⟨x, taken⟩ := missMany_taken (missingLeft s) enabled (Nat.le_refl _)
  obtain ⟨armed, length1, off, marker1, rate1⟩ := missMany_kept (missingLeft s) s
  have none : missingLeft (s.missMany (missingLeft s)) = 0 := State.missMany_missingDue s
  obtain ⟨lines, mix, cue, players, meter, ports, free, pending⟩ := State.missMany_frame s (missingLeft s)
  have first : s.arrival 3 length = arrived (markerCleared ((s.missMany (missingLeft s)).takeLockOrLoss 3) 3) 3
      (measuredLength s 3 length) := arrival_eq s 3 length
  generalize s.missMany (missingLeft s) = m at *
  have closed := armed (.inl due)
  obtain ⟨armed2, length2, -, -, -, rate2⟩ := takeLockOrLoss_kept m 3
  obtain ⟨lines2, mix2, cue2, players2, meter2, ports2, free2, pending2⟩ := State.takeLockOrLoss_frame m 3
  have again : (withLevels m x).arrival 3 length = arrived (markerCleared (withLevels (m.takeLockOrLoss 3) x) 3) 3
      (measuredLength (withLevels m x) 3 length) := by
    rw [← takeLockOrLoss_withLevels]
    refine (arrival_eq (withLevels m x) 3 length).trans ?_
    rw [if_pos rfl, show (withLevels m x).missingDue = 0 from none]
    rfl
  have closed2 : ((m.takeLockOrLoss 3).ref 3).armed = false := armed2.trans closed
  rw [arrived_opens closed2] at first
  rw [arrived_opens (s := withLevels (m.takeLockOrLoss 3) x) closed2] at again
  have same : ((withLevels m x).arrival 3 length).driveNotices = (s.arrival 3 length).driveNotices := by
    rw [first, again]
    rfl
  obtain ⟨refs, ⟨lines3, mix3, cue3, players3, meter3, ports3, pending3⟩, -, free3, clock⟩ :=
    setRef_cleared (m.takeLockOrLoss 3) 3 { (m.takeLockOrLoss 3).ref 3 with armed := true }
  rw [← first] at refs lines3 mix3 cue3 players3 meter3 ports3 pending3 free3 clock
  have run := markerArrival_taken enabled marker length
  have run2 : exec (.referencePeriod 3 length) (withLevels m x) = .next (s.arrival 3 length).driveNotices := by
    rw [← same]
    refine markerArrival_taken (s := withLevels m x) (fun h => enabled (off.1 h)) (fun h => marker ?_) length
    rw [← marker1]
    exact h
  clear first again same
  generalize s.arrival 3 length = t at *
  have record : t.driveNotices.ref 3 = { (m.takeLockOrLoss 3).ref 3 with armed := true } :=
    (refs 3).trans (if_pos rfl)
  rw [if_pos (show (3 : RefId).val = 3 from rfl)] at clock
  refine ⟨_, _, taken, run, run2, closed, none, by rw [record], ?_, ?_, ?_, ?_,
    (free3.trans free2).trans free, ?_⟩
  · rw [record]
    exact length2.trans length1
  · exact congrArg FrameClock.marker clock
  · exact congrArg FrameClock.missed clock
  · have rate := congrArg FrameClock.rate clock
    exact rate.trans ((rate2 (by decide)).trans rate1)
  · exact ⟨(lines3.trans lines2).trans lines, (mix3.trans mix2).trans mix, (cue3.trans cue2).trans cue,
      (players3.trans players2).trans players, (meter3.trans meter2).trans meter, (ports3.trans ports2).trans ports,
      (pending3.trans pending2).trans pending⟩

/-- Settles O40, by the kind of the period. -/
theorem periodsAreCounted : Obligations.PeriodsAreCounted := by
  refine ⟨fun r length s ends sound => soundPeriod_taken ends sound, fun r length s ends faulty => faultyPeriod_taken ends faulty,
    fun r length s enabled closed idle marker => openingPeriod_taken length enabled closed idle marker,
    fun length s enabled marker due => gapPeriod_taken length enabled marker due,
    fun r s other enabled idle due => missingPeriod_taken other enabled idle due, fun s => ⟨?_, fun none => ?_⟩,
    fun r length s off => ⟨?_, ?_⟩⟩
  · refine congrArg Host.Outcome.next (if_neg ?_)
    simp [State.missingTaken]
  · refine congrArg Host.Outcome.next (if_neg ?_)
    simp [State.missingTaken, State.missingDue_spec, none]
  · refine congrArg Host.Outcome.next (if_neg ?_)
    simp [State.arrivalTaken, off]
  · refine congrArg Host.Outcome.next (if_neg ?_)
    simp [State.missingTaken, off]

end Sys2Proof.Proofs.Periods


namespace Sys2Proof.Proofs.Signalling

open Sys2Proof Sys2Proof.Machine Sys2Proof.Safety Sys2Proof.Proofs.Courses Sys2Proof.Proofs.Effects Sys2Proof.Proofs.Players
  Sys2Proof.Proofs.OwnershipTasks Sys2Proof.Proofs.CueSteps Sys2Proof.Proofs.Periods

/-! ## The four debounced events (R55 to R58) -/

/-- One line written, in the words of the statements. -/
theorem onlyLine_of_lines {s t : State} {l : Line} {r : LineRec} (owners : t.lineTable.busOwner = s.lineTable.busOwner)
    (lines : ∀ k, t.line k = if k = l then r else s.line k) : OnlyLine s t l ∧ t.line l = r :=
  ⟨⟨congrArg (fun o => (⟨t.lineTable.lines, o⟩ : LineTable)) owners, fun k hk => (lines k).trans (if_neg hk)⟩,
    (lines l).trans (if_pos rfl)⟩

/-- A debounced event touches lines, players and notices, and no bus owner. -/
theorem takeDisconnect_busOwner (s : State) (l : Line) :
    (s.takeDisconnect l).lineTable.busOwner = s.lineTable.busOwner := by
  unfold State.takeDisconnect
  dsimp only
  split <;> simp [State.modLine]

theorem takeAttentionRaised_busOwner (s : State) (l : Line) :
    (s.takeAttentionRaised l).lineTable.busOwner = s.lineTable.busOwner := by
  unfold State.takeAttentionRaised State.setAttention
  dsimp only
  split <;> simp [State.modLine]

/-- Disconnect raises DROPPED for the owner (R56). -/
theorem takeDisconnect_notice (s : State) (l : Line) :
    EventsAdded s (s.takeDisconnect l) (fun q k e => e == .dropped && k == l && (s.line l).owner == some q) ∧
    (s.takeDisconnect l).notice = { s.notice with events := (s.takeDisconnect l).notice.events } := by
  unfold State.takeDisconnect
  dsimp only
  cases owner : (s.line l).owner with
  | none => exact ⟨fun q k e => by simp, rfl⟩
  | some p =>
    obtain ⟨events, notice⟩ := State.raise_spec (s.modLine l fun r => { r with connected := false, connCount := 0 }) p l .dropped
    refine ⟨fun q k e => (events q k e).trans ?_, notice⟩
    refine congrArg (_ || ·) ?_
    simp [Bool.and_comm, Bool.and_left_comm, Bool.beq_comm (a := q)]

/-- Attention raised sets the latch view (R57, R146). -/
theorem takeAttentionRaised_notice (s : State) (l : Line) :
    (∀ k, tget (s.takeAttentionRaised l).notice.latchView k = if k = l then true else tget s.notice.latchView k) ∧
    (s.takeAttentionRaised l).notice = { s.notice with latchView := (s.takeAttentionRaised l).notice.latchView } := by
  obtain ⟨-, -, views, notice⟩ :=
    State.setAttention_spec (s.modLine l fun r => { r with attnRaised := true, attnCount := 0 }) l true
  unfold State.takeAttentionRaised
  dsimp only
  split <;> exact ⟨views, notice⟩

/-- Settles O43: the event's effect on the line, its notice and the players it tells. -/
theorem debouncedEventsAreTaken : Obligations.DebouncedEventsAreTaken := by
  refine ⟨fun l s due off => ?_, fun l s due on => ?_, fun l s due off => ?_, fun l s due on => ?_, fun l s early => ⟨?_, ?_⟩,
    fun l s early => ⟨?_, ?_⟩⟩
  · refine ⟨_, congrArg Host.Outcome.next (if_pos (by simp [State.connectedDue, due, off])), ?_⟩
    obtain ⟨only, line⟩ := onlyLine_of_lines (by simp [State.takeConnect, State.modLine]) (takeConnect_line s l)
    have told := takeConnect_told s l
    have frame := State.takeConnect_frame s l
    generalize s.takeConnect l = u at *
    obtain ⟨mix, cue, notice, meter, clock, ports, free, pending⟩ := frame
    exact ⟨only, line, told, driven_of_same notice, ⟨cue, meter, clock, ports, free, pending⟩, mix⟩
  · refine ⟨_, congrArg Host.Outcome.next (if_pos (by simp [State.connectedDue, due, on])), ?_⟩
    obtain ⟨only, line⟩ := onlyLine_of_lines (takeDisconnect_busOwner s l) (takeDisconnect_line s l)
    have told := takeDisconnect_told s l
    obtain ⟨events, notice⟩ := takeDisconnect_notice s l
    have frame := State.takeDisconnect_frame s l
    generalize s.takeDisconnect l = u at *
    obtain ⟨mix, cue, meter, clock, ports, free, pending⟩ := frame
    obtain ⟨driven, follow⟩ := State.driveNotices_spec u
    exact ⟨only, line, told, events, driven.trans (congrArg (fun n : NoticeUnit => { n with line := u.driveNotices.notice.line })
      notice), follow, ⟨cue, meter, clock, ports, free, pending⟩, mix⟩
  · refine ⟨_, congrArg Host.Outcome.next (if_pos (by simp [State.attentionDue, due, off])), ?_⟩
    obtain ⟨only, line⟩ := onlyLine_of_lines (takeAttentionRaised_busOwner s l) (takeAttentionRaised_line s l)
    have told := takeAttentionRaised_told s l
    obtain ⟨views, notice⟩ := takeAttentionRaised_notice s l
    have frame := State.takeAttentionRaised_frame s l
    generalize s.takeAttentionRaised l = u at *
    obtain ⟨mix, cue, meter, clock, ports, free, pending⟩ := frame
    obtain ⟨driven, follow⟩ := State.driveNotices_spec u
    exact ⟨only, line, views, driven.trans (congrArg (fun n : NoticeUnit => { n with line := u.driveNotices.notice.line })
      notice), follow, told, ⟨cue, meter, clock, ports, free, pending⟩, mix⟩
  · refine ⟨_, congrArg Host.Outcome.next (if_pos (by simp [State.attentionDue, due, on])), ?_⟩
    obtain ⟨only, line⟩ := onlyLine_of_lines (by simp [State.takeAttentionDropped, State.modLine]) (takeAttentionDropped_line s l)
    exact ⟨only, line, rfl, driven_of_same rfl, ⟨rfl, rfl, rfl, rfl, rfl, rfl⟩, rfl⟩
  all_goals
    refine congrArg Host.Outcome.next (if_neg ?_)
    simp [State.connectedDue, State.attentionDue, Nat.not_le.2 early]

/-! ## A frame's signalling words (R52, R190) -/

/-- Without a due change there is none to take. -/
theorem takeDueSignals_idle {s : State} (quiet : NoSignalDue s) (l : Line) : s.takeDueSignals l = s := by
  obtain ⟨connected, attention⟩ := quiet l
  simp [State.takeDueSignals, connected, attention]

/-- What LNK's markers have left due, taken by its commands, differs from the model's own at most in levels driven in between. -/
theorem linkPeriodsTaken_takeMarkerDue (s : State) : ∃ x, LinkPeriodsTaken s (withLevels s.takeMarkerDue x) := by
  unfold LinkPeriodsTaken State.takeMarkerDue
  by_cases off : (s.ref 3).state = .off
  · refine ⟨s.notice.line, ?_⟩
    simp [off, State.arrivalTaken]
    rfl
  · simp only [if_neg off]
    by_cases quiet : s.clock.marker = none
    · obtain ⟨x, taken⟩ := missMany_taken (missingLeft s) off (Nat.le_refl _)
      refine ⟨x, ?_⟩
      rw [if_pos quiet]
      have noMarker : s.arrivalTaken RefId.lnk = false := by simp [State.arrivalTaken, quiet]
      have enabled : ((s.ref RefId.lnk).state != .off) = true := by simpa using off
      rw [noMarker, enabled]
      exact taken
    · refine ⟨(s.arrival 3 0).driveNotices.notice.line, ?_⟩
      rw [if_neg quiet, markerArrival_taken off quiet]
      have taken : s.arrivalTaken RefId.lnk = true := by
        simp [State.arrivalTaken, off, Option.isSome_iff_ne_none, quiet]
      rw [if_pos taken]
      rfl

/-- Settles O42: what is due is taken, then the debounces step and the marker is timed. -/
theorem signallingWordStepsTheDebounce : Obligations.SignallingWordStepsTheDebounce := by
  refine ⟨fun rx s running quiet => ?_, fun rx s idle => congrArg Host.Outcome.next (if_neg (by simp [idle]))⟩
  obtain ⟨x, taken⟩ := linkPeriodsTaken_takeMarkerDue s
  have run : exec (.signallingWord rx) s = .next
      ((s.takeMarkerDue.stepDebounce rx).withClock
        ((s.takeMarkerDue.stepDebounce rx).clock.timeMarker (frameMarker rx))).driveNotices := by
    refine congrArg Host.Outcome.next ((if_pos running).trans ?_)
    rw [List.foldl_fixed' (takeDueSignals_idle quiet)]
  have frame := State.takeMarkerDue_frame s
  generalize s.takeMarkerDue = m at *
  obtain ⟨lines, mix, cue, players, meter, ports, pending⟩ := frame
  have stepped := State.mapLines_spec m fun l r => { r with
    connCount := debounce r.connected (rawConnected rx l) r.connCount
    attnCount := debounce r.attnRaised (rawAttention rx l) r.attnCount }
  refine ⟨_, _, run, taken, ?_, rfl, ?_, fun l => ?_, ?_, mix, cue, players, meter, ports, pending⟩
  · exact FrameClock.timeMarker_spec m.clock rx
  · exact (stepped.2.trans (by rw [lines]))
  · refine (stepped.1 l).trans ?_
    rw [line_congr lines]
    rfl
  · exact State.driveNotices_spec _

end Sys2Proof.Proofs.Signalling
